-- ==== Sys2Proof/Word.lean ====
section
/-! DEFINITION. The word types of the block: bytes, command words, the two register widths, and the widths of the ports. -/

namespace Sys2Proof

/-- The addressable unit of every buffer (rule R31). -/
abbrev Byte := BitVec 8

/-- One command word, `cmd[7:0]` (rule R46). -/
abbrev CmdWord := BitVec 8

/-- A 128-bit feedback shift register, bit 0 the least significant bit of byte 0 (rules R8, R10, R11). -/
abbrev Reg128 := BitVec 128

/-- A 64-bit MAC register (rules R12, R13); also the width of a tag (rule R6). -/
abbrev Reg64 := BitVec 64

/-- The nonce port, 96 bits (rules R6, R21). -/
abbrev NonceWord := BitVec 96

end Sys2Proof
end

