-- ==== Sys2Proof/Config.lean ====
section
/-! DEFINITION. What is fixed for one machine: the constants of rule R6, the open parameters of rule R7 as one plain record, and the one free value. -/

namespace Sys2Proof

/-- The bit-window widths and batch strides of rules R7 (`W`), R60 and R62. -/
inductive Width where
  | w1
  | w8
  | w32
  deriving DecidableEq, Repr

/-- The number of bits of a width. -/
abbrev Width.bits : Width → Nat
  | .w1 => 1
  | .w8 => 8
  | .w32 => 32

/-- The parameter `MSG_BIT_ORDER` of rules R7 and R34. -/
inductive MsgBitOrder where
  | lsbFirst
  | msbFirst
  deriving DecidableEq, Repr

/-- The open parameters of rule R7 that a result can depend on, as plain data, so that a statement about every state is
a statement about every parameter value. Their defaults stand in `Sys2Proof.Machine.defaultConfig`. (`W` changes no
result, rule R85: the batched forms are functions of a `Width`. `LENW` is the constant `lenw`. `BUFFER_TRANSPORT` is byte
lists, rule R39.) -/
structure Config where
  /-- `F_NFSR` (rules R7, R72, R73): an exclusive-or of products, each product a list of NFSR tap addresses. Every function
  of 128 bits has this form; the empty product is the constant 1. -/
  fNfsr : List (List Nat)
  /-- `H_NFSR_POS` (rules R7, R70): bit k is 1 when `h` reads its input x_k from NFSR, 0 when from LFSR. -/
  hNfsr : BitVec 9
  /-- `MSG_BIT_ORDER` (rules R7, R34). -/
  msgBitOrder : MsgBitOrder
  /-- `ZEROIZE` (rules R7, R27). -/
  zeroize : Bool
  deriving DecidableEq, Repr

/-- Key length in bytes (rule R6). -/
def Config.keyBytes : Nat := 16

/-- Nonce length in bytes (rule R6). -/
def Config.nonceBytes : Nat := 12

/-- Tag length in bytes (rule R6). -/
def Config.tagBytes : Nat := 8

/-- `LENW`, the width of the orchestrator's length counters (rule R7). -/
def Config.lenw : Nat := 64

/-- FREE VALUE (log entry 3): what the port `dout` carries in a step with `dout_valid` = 0. Rule R168 gives it no meaning
there. It has no body, so nothing can be proved of any value of it. The argument is the model's counter of free values. -/
opaque Config.undrivenDout : Nat → Bool

end Sys2Proof
end

