-- ==== Sys2Proof/Syntax.lean ====
section
/-! DEFINITION. The nine commands of the opcode table (rule R48) and the raw fields of a command word (rule R46). -/

namespace Sys2Proof

/-- One constructor per row of the opcode table (rule R48). A Format B command carries its one-bit operand `d` as it
stands (rule R47). -/
inductive Instr where
  /-- `NOP`, word 0x00 (rule R86). -/
  | nop
  /-- `LOAD d`, words 0x10 and 0x11: `d` is the direction, 0 encrypt, 1 decrypt (rule R91). -/
  | load (d : Bool)
  /-- `ADBIT m`, words 0x20 and 0x21 (rule R104). -/
  | adbit (m : Bool)
  /-- `ENCBIT p`, words 0x30 and 0x31 (rule R120). -/
  | encbit (p : Bool)
  /-- `DECBIT c`, words 0x40 and 0x41 (rule R121). -/
  | decbit (c : Bool)
  /-- `PAD`, word 0x50 (rule R105). -/
  | pad
  /-- `TAG`, word 0x60 (rule R124). -/
  | tag
  /-- `VERIFY`, word 0x70 (rule R125). -/
  | verify
  /-- `CLEAR`, word 0x80 (rule R126). -/
  | clear
  deriving DecidableEq, Repr

/-- The three fields of a command word, before any check (rule R46). -/
structure Fields where
  /-- `cmd[7:4]`, the opcode. -/
  op : BitVec 4
  /-- `cmd[3:1]`, reserved. -/
  rsv : BitVec 3
  /-- `cmd[0]`, the operand bit. -/
  d : Bool
  deriving DecidableEq, Repr

/-- The two formats of rule R46. -/
inductive Format where
  /-- One 1-bit operand. -/
  | b
  /-- No operand. -/
  | n
  deriving DecidableEq, Repr

/-- The format of an opcode; none for the reserved opcodes 9 to 15 (rules R48, R50). -/
def formatOf (op : BitVec 4) : Option Format :=
  match op.toNat with
  | 0 => some .n
  | 1 => some .b
  | 2 => some .b
  | 3 => some .b
  | 4 => some .b
  | 5 => some .n
  | 6 => some .n
  | 7 => some .n
  | 8 => some .n
  | _ => none

end Sys2Proof
end

