-- ==== Sys2Proof/WellFormed.lean ====
section
/-! DEFINITION. The checks: a command word's fields (rules R46, R50), an instruction, and the parameters (rules R7, R73). -/

namespace Sys2Proof

/-- The opcode is one of the nine of rule R48 (opcodes 9 to 15 are reserved, rule R50). -/
def Fields.opcodeKnown (f : Fields) : Bool := (formatOf f.op).isSome

/-- `cmd[3:1]` is 000 (rules R46, R50). -/
def Fields.reservedClear (f : Fields) : Bool := f.rsv == 0

/-- A Format N command has `cmd[0]` = 0 (rules R46, R50). -/
def Fields.operandAllowed (f : Fields) : Bool := !(formatOf f.op == some .n && f.d)

/-- The fields are those of one of the thirteen legal words (rule R48). -/
def Fields.wf (f : Fields) : Bool := f.opcodeKnown && f.reservedClear && f.operandAllowed

/-- Every term of `Instr` is well formed: the only operand is one bit, used as it stands (rule R47), so the type itself
holds no ill-formed command. The checks that can fail are those on a word's `Fields`. -/
def Instr.wf : Instr → Bool
  | .nop => true
  | .load _ => true
  | .adbit _ => true
  | .encbit _ => true
  | .decbit _ => true
  | .pad => true
  | .tag => true
  | .verify => true
  | .clear => true

/-- Every tap of `F_NFSR` is at most 96 (rule R73: lane 31 of the widest batch reads tap + 31). -/
def Config.tapsInRange (c : Config) : Bool := c.fNfsr.all fun term => term.all fun tap => decide (tap ≤ 96)

/-- Exactly two of the nine `h` inputs are read from NFSR (rule R7). -/
def Config.twoNfsrInputs (c : Config) : Bool :=
  ((List.range 9).countP fun k => c.hNfsr.getLsbD k) == 2

/-- The parameters have legal values (rules R7, R73). -/
def Config.wf (c : Config) : Bool := c.tapsInRange && c.twoNfsrInputs

end Sys2Proof
end

