-- ==== Sys2Proof/Decode.lean ====
section
/-! DEFINITION. The decoder, total on all 256 words (rules R46, R48 to R50), the encoder from the same table, and the assembler's text (rule R54). -/

namespace Sys2Proof

/-- The fields of a command word (rule R46): `op` = `cmd[7:4]`, `rsv` = `cmd[3:1]`, `d` = `cmd[0]`. -/
def fieldsOf (w : CmdWord) : Fields where
  op := w.extractLsb' 4 4
  rsv := w.extractLsb' 1 3
  d := w.getLsbD 0

/-- The word made of the fields (rule R46). -/
def Fields.toWord (f : Fields) : CmdWord := f.op ++ f.rsv ++ BitVec.ofBool f.d

/-- The command an opcode names, with its operand bit (rule R48). -/
def commandOf (op : BitVec 4) (d : Bool) : Option Instr :=
  match op.toNat with
  | 0 => some .nop
  | 1 => some (.load d)
  | 2 => some (.adbit d)
  | 3 => some (.encbit d)
  | 4 => some (.decbit d)
  | 5 => some .pad
  | 6 => some .tag
  | 7 => some .verify
  | 8 => some .clear
  | _ => none

/-- The decoder: the command of a legal word, none for each of the 243 illegal words (rules R48, R50). It reads no state
(rule R51). -/
def decode (w : CmdWord) : Option Instr :=
  let f := fieldsOf w
  if f.wf then commandOf f.op f.d else none

/-- The encoder (rule R48). -/
def encode : Instr → CmdWord
  | .nop => 0x00
  | .load d => if d then 0x11 else 0x10
  | .adbit m => if m then 0x21 else 0x20
  | .encbit p => if p then 0x31 else 0x30
  | .decbit c => if c then 0x41 else 0x40
  | .pad => 0x50
  | .tag => 0x60
  | .verify => 0x70
  | .clear => 0x80

/-- The decoder as the opcode table numbers an instruction's bits: there is one command length, 8 bits (rule R46). -/
def decodeTableWord (nbits w : Nat) : Option Instr :=
  if nbits = 8 ∧ w < 256 then decode (BitVec.ofNat 8 w) else none

/-- An operand bit in assembler text (rule R54). -/
def bitText (b : Bool) : String := if b then "1" else "0"

/-- A command as rule R54 writes it: the mnemonic, then the operand bit where the format has one. -/
def Instr.asm : Instr → String
  | .nop => "NOP"
  | .load d => "LOAD " ++ bitText d
  | .adbit m => "ADBIT " ++ bitText m
  | .encbit p => "ENCBIT " ++ bitText p
  | .decbit c => "DECBIT " ++ bitText c
  | .pad => "PAD"
  | .tag => "TAG"
  | .verify => "VERIFY"
  | .clear => "CLEAR"

end Sys2Proof
end

