-- ==== Sys2Proof/Machine/BitWindow.lean ====
section
/-! DEFINITION. BitWindow: windows, shift-in and single-bit writes (rules R60 to R66). -/

namespace Sys2Proof.Machine

/-- `extract(B, s, w)` (rule R60): the w bits from address s, right-aligned; none (the model refuses) when the window does
not lie inside the n bits. -/
def extract {n : Nat} (b : BitVec n) (s : Nat) (w : Width) : Option (BitVec w.bits) :=
  if s + w.bits ≤ n then some (b.extractLsb' s w.bits) else none

/-- The 1-bit window of a byte buffer: `(B.byte[k] >> r) & 1` (rule R61). -/
def byteWindow1 (b : List Byte) (s : Nat) : Option Bool :=
  (b[s / 8]?).map fun x => x.getLsbD (s % 8)

/-- The 8-bit window of a byte buffer (rule R61): one byte when s is a multiple of 8, else pieces of two. -/
def byteWindow8 (b : List Byte) (s : Nat) : Option Byte :=
  match b[s / 8]? with
  | none => none
  | some lo =>
    if s % 8 = 0 then some lo
    else (b[s / 8 + 1]?).map fun (hi : Byte) => (lo >>> (s % 8)) ||| (hi <<< (8 - s % 8))

/-- The 32-bit window of a byte buffer (rule R61): the little-endian number of the four 8-bit windows. -/
def byteWindow32 (b : List Byte) (s : Nat) : Option (BitVec 32) :=
  match byteWindow8 b s, byteWindow8 b (s + 8), byteWindow8 b (s + 16), byteWindow8 b (s + 24) with
  | some b0, some b1, some b2, some b3 => some (b3 ++ b2 ++ b1 ++ b0)
  | _, _, _, _ => none

/-- `shift_in(R, v, w)` (rule R62): the lowest w bits leave, v enters at the top. -/
def shiftIn (w : Width) (r : Reg128) (v : BitVec w.bits) : Reg128 :=
  (r >>> w.bits) ||| (v.setWidth 128 <<< (128 - w.bits))

/-- `shift_in` of one bit (rules R14, R62): bit i takes the old bit i + 1, bit 127 the new bit. -/
def shiftIn1 (r : Reg128) (b : Bool) : Reg128 := shiftIn .w1 r (BitVec.ofBool b)

/-- `shift_in64(A, a)` (rule R64). -/
def shiftIn64 (a : Reg64) (b : Bool) : Reg64 := (a >>> 1) ||| ((BitVec.ofBool b).setWidth 64 <<< 63)

/-- The batched form of `shift_in64` (rule R64). -/
def shiftIn64W (w : Width) (a : Reg64) (v : BitVec w.bits) : Reg64 :=
  (a >>> w.bits) ||| (v.setWidth 64 <<< (64 - w.bits))

/-- `set_bit(B, i, v)` (rule R65). -/
def setBit {n : Nat} (b : BitVec n) (i : Nat) (v : Bool) : BitVec n :=
  (b &&& ~~~(1#n <<< i)) ||| ((BitVec.ofBool v).setWidth n <<< i)

/-- The value of n bits whose bit i is `f i` (rule R8). -/
def packBits : (n : Nat) → (Nat → Bool) → BitVec n
  | 0, _ => 0
  | n + 1, f => BitVec.cons (f n) (packBits n f)

end Sys2Proof.Machine
end

