-- ==== Sys2Proof/Machine/Defaults.lean ====
section
/-! DEFINITION. The defaults of the open parameters (rule R7). -/

namespace Sys2Proof.Machine

/-- The default `F_NFSR`: the 29 taps of rule R74 (the spec's own addition from general knowledge, log entry 1). -/
def defaultFNfsr : List (List Nat) :=
  [[0], [26], [56], [91], [96],
   [3, 67], [11, 13], [17, 18], [27, 59], [40, 48], [61, 65], [68, 84],
   [22, 24, 25], [70, 78, 82],
   [88, 92, 93, 95]]

/-- The default `H_NFSR_POS` = {0, 4} (rule R70): `h` reads x0 and x4 from NFSR. -/
def defaultHNfsr : BitVec 9 := 0b000010001

/-- The default parameters (rule R7). -/
def defaultConfig : Config where
  fNfsr := defaultFNfsr
  hNfsr := defaultHNfsr
  msgBitOrder := .lsbFirst
  zeroize := true

end Sys2Proof.Machine
end

