-- ==== Sys2Proof/Machine/State.lean ====
section
/-! DEFINITION. The state of the machine as plain data (rules R10 to R24, R28, R30), its reset value, and the reasons a step can stop. -/

namespace Sys2Proof.Machine

/-- The sequencer's `phase` (rule R15). Value 6 is never taken (rule R15, row U8 of 93_implementation_defined.md): no
constructor stands for it. -/
inductive Phase where
  | idle
  | init
  | ad
  | text
  | padded
  | done
  | error
  deriving DecidableEq, Repr

/-- `errcode` (rules R18, R140). Values 4 to 15 are never produced: no constructor stands for one. `contractViolation` is
reported by the orchestrator's wrapper only, never by the engine (rules R140, R142). -/
inductive ErrCode where
  | none
  | illegalCommand
  | protocolViolation
  | contractViolation
  deriving DecidableEq, Repr

/-- The four datapath registers, CipherState and MacState (rules R9 to R13). -/
structure Datapath where
  lfsr : Reg128
  nfsr : Reg128
  acc : Reg64
  auth : Reg64
  deriving DecidableEq, Repr

/-- All four registers zero (rule R27). -/
def Datapath.zero : Datapath := ⟨0, 0, 0, 0⟩

/-- The orchestrator's byte buffers (rules R30, R39): byte k of a buffer is entry k of its list, so each list is the
buffer's one canonical form. -/
structure Memory where
  ad : List Byte
  txtIn : List Byte
  txtOut : List Byte
  deriving DecidableEq, Repr

/-- The sizes of rules R6 and R30: `TXTOUT` is as long as `TXTIN`, and the associated data is shorter than 2^64 bytes. -/
def Memory.wf (m : Memory) : Bool :=
  m.txtOut.length == m.txtIn.length && decide (m.ad.length < 2 ^ Config.lenw)

/-- The orchestrator's stage (rules R24, R132, R133): the command it has on the port, or next puts there. -/
inductive Stage where
  /-- No transaction of the orchestrator's runs. -/
  | idle
  /-- Line 1: `LOAD`. -/
  | load
  /-- Lines 2 to 4: waiting out INIT, then the AD stream (rule R9), one bit a command. -/
  | adStream
  /-- Line 5: the text, one bit a command. -/
  | text
  /-- Line 6: `PAD`. -/
  | pad
  /-- Line 7: `TAG` or `VERIFY`. -/
  | finish
  deriving DecidableEq, Repr

/-- The orchestrator's own state (rules R24, R130, R161). -/
structure Orchestrator where
  stage : Stage
  /-- The loop position within the stage, as one count of bits: byte index `pos / 8`, bit index `pos % 8` (rule R24). -/
  pos : Nat
  /-- The output byte being assembled from the output bits of text commands (rules R55, R122, R130): it is written to `TXTOUT`
  whole (rules R37, R132). -/
  outByte : Byte
  /-- The direction of the call: false ENCRYPT, true DECRYPT (rules R130, R132, R133). -/
  decrypt : Bool
  /-- The orchestrator knows M, the length of `TXTOUT` (rule R130): from a call on, until a reset (rule R161). M itself is the
  length of the list. -/
  knowsM : Bool
  /-- The code the wrapper last reported (rules R140, R142): `contractViolation` after a refused call, else `none`. -/
  report : ErrCode
  deriving DecidableEq, Repr

/-- The orchestrator in its idle state, as reset leaves it (rule R161). -/
def Orchestrator.atRest : Orchestrator where
  stage := .idle
  pos := 0
  outByte := 0
  decrypt := false
  knowsM := false
  report := .none

/-- What the world outside does next (rules R21, R130, R160; log entry 5). The command port is the orchestrator's while one of
its transactions runs (rule R130); a raw command or a call waits until the port is free. -/
inductive HostMove where
  /-- One period in which the host starts nothing. -/
  | idle
  /-- `rst` = 1 for one period (rule R160). -/
  | reset
  /-- Present a command word, with values on the wide ports, and hold it until it is taken (rule R21). In INIT the port `key`
  keeps its value (rule R166). -/
  | command (word : CmdWord) (key : Reg128) (nonce : NonceWord) (tag : Reg64)
  /-- Take back a raw command that is still pending (rule R21). -/
  | withdraw
  /-- Abandon whatever transaction runs: `CLEAR` is put on the port (rules R126, R131). -/
  | abandon
  /-- Call `ENCRYPT` with byte strings (rule R132). -/
  | encrypt (key nonce ad text : List Byte)
  /-- Call `DECRYPT` with byte strings (rule R133). -/
  | decrypt (key nonce tag ad text : List Byte)
  deriving DecidableEq, Repr

/-- The machine. The first five groups are the spec's own state; `host` and `freeCount` are the model's. -/
structure State where
  /-- LFSR, NFSR, ACC, AUTH (rules R10 to R13). -/
  dp : Datapath
  /-- The sequencer (rule R15). -/
  phase : Phase
  /-- The initialisation step counter, 9 bits (rule R16). -/
  ctr : BitVec 9
  /-- The direction of the transaction, 0 encrypt, 1 decrypt (rule R17). -/
  dir : Bool
  /-- `ok` is valid (rule R18). -/
  okv : Bool
  /-- The source's `authenticated` (rule R18). -/
  ok : Bool
  /-- `tag_out` is valid (rule R18). -/
  tagv : Bool
  /-- A fault was taken (rule R18). -/
  err : Bool
  /-- The code of the fault (rules R18, R140). -/
  errcode : ErrCode
  /-- `TXTOUT` must be zeroed (rules R18, R131). -/
  wipe : Bool
  /-- The tag output latch, the port `tag_out` (rule R19). -/
  tago : Reg64
  /-- `K`, the key of the transaction as fixed by LOAD (rule R22). -/
  k : Reg128
  /-- The output port `dout` (rule R21). -/
  dout : Bool
  /-- The output port `dout_valid` (rule R21). -/
  doutValid : Bool
  /-- The input port `rst` in the coming period (rule R21). -/
  rst : Bool
  /-- The input port `cmd_valid` in the coming period (rule R21). -/
  cmdValid : Bool
  /-- The input port `cmd` (rule R21). -/
  cmd : CmdWord
  /-- The input port `key` (rule R21). -/
  key : Reg128
  /-- The input port `nonce` (rule R21). -/
  nonce : NonceWord
  /-- The input port `tag_in` (rule R21). -/
  tagIn : Reg64
  /-- The buffers `AD`, `TXTIN`, `TXTOUT` (rule R30). -/
  mem : Memory
  /-- The orchestrator's own state (rules R24, R130). -/
  orch : Orchestrator
  /-- The parameters of this machine (rule R7); no step changes them. -/
  cfg : Config
  /-- What the host does next, oldest first (log entry 5). -/
  host : List HostMove
  /-- The model's counter of free values (log entry 3). -/
  freeCount : Nat
  deriving DecidableEq, Repr

/-- The machine right after reset (rule R28). The datapath registers, `K` and the input ports have no reset value in the
spec: zero is the model's choice (log entry 2). The buffers are empty and nothing is on the ports. -/
def State.reset : State where
  dp := Datapath.zero
  phase := .idle
  ctr := 0
  dir := false
  okv := false
  ok := false
  tagv := false
  err := false
  errcode := .none
  wipe := false
  tago := 0
  k := 0
  dout := false
  doutValid := false
  rst := false
  cmdValid := false
  cmd := 0
  key := 0
  nonce := 0
  tagIn := 0
  mem := ⟨[], [], []⟩
  orch := Orchestrator.atRest
  cfg := defaultConfig
  host := []
  freeCount := 0

/-- The reasons the machine stops with a fault: there are none. Every exceptional outcome of rule R140 is a next state:
IllegalCommand and ProtocolViolation enter phase ERROR (rule R146), AuthenticationFailure is a result (rule R141), and
ContractViolation is a report of the wrapper (rule R142). -/
inductive Fault where
  deriving DecidableEq, Repr

/-- The reasons a step is refused. -/
inductive Refusal where
  /-- Raised by the dispatcher for a command that has no meaning yet. Safe: nothing is claimed of it. No arm raises it. -/
  | notModelled (mnemonic : String)
  /-- Raised by the orchestrator when it would read or write a byte outside a buffer (rule R31, row U9 of
  93_implementation_defined.md: "must refuse, not return a value"). Safe. No state that meets the model's invariant
  raises it. -/
  | bufferIndexOutOfRange
  /-- Raised by the orchestrator when the associated data has 2^64 bytes or more and no length prefix exists (rule R100,
  row U13). Safe. No state that meets the model's invariant raises it. -/
  | lengthNotEncodable
  deriving DecidableEq, Repr

/-- The outcome of a step of this machine. -/
abbrev Result := Host.Outcome State Fault Refusal

end Sys2Proof.Machine
end

