-- ==== Sys2Proof/Machine/Flags.lean ====
section
/-! DEFINITION. The status flags and the views made of them: `cmd_ready`, `STATUS` (rules R18 to R21). -/

namespace Sys2Proof.Machine

/-- The number of a phase (rule R15). -/
def Phase.code : Phase → BitVec 3
  | .idle => 0
  | .init => 1
  | .ad => 2
  | .text => 3
  | .padded => 4
  | .done => 5
  | .error => 7

/-- The number of an error code (rule R140). -/
def ErrCode.code : ErrCode → BitVec 4
  | .none => 0
  | .illegalCommand => 1
  | .protocolViolation => 2
  | .contractViolation => 3

/-- The output port `cmd_ready`: 0 exactly in phase INIT (rules R20, R21). -/
def State.cmdReady (s : State) : Bool := s.phase != .init

/-- `STATUS`, the port `status` (rule R20): bits 15:14 zero, 13 `wipe`, 12:9 `errcode`, 8 `err`, 7 `ok`, 6 `okv`, 5 `tagv`,
4 `ready`, 3 `dir`, 2:0 `phase`. -/
def State.status (s : State) : BitVec 16 :=
  (0#2 ++ BitVec.ofBool s.wipe ++ s.errcode.code ++ BitVec.ofBool s.err ++ BitVec.ofBool s.ok ++ BitVec.ofBool s.okv
    ++ BitVec.ofBool s.tagv ++ BitVec.ofBool s.cmdReady ++ BitVec.ofBool s.dir ++ s.phase.code : BitVec 16)

/-- The flags and the latch of a result, all cleared: `ok`, `okv`, `tagv`, `TAGO` (line 6 of rule R91, line 3 of rule R146,
line 2 of rule R126). -/
def State.clearResult (s : State) : State := { s with ok := false, okv := false, tagv := false, tago := 0 }

end Sys2Proof.Machine
end

