-- ==== Sys2Proof/Machine/Operands.lean ====
section
/-! DEFINITION. Operands: byte strings as port values and back, the order of message bits, the pad (rules R32 to R35, R47, R56). -/

namespace Sys2Proof.Machine

/-- The little-endian number of a byte string, `sum over k of byte[k] * 256^k` (rule R33). -/
def bytesToNat : List Byte → Nat
  | [] => 0
  | b :: bs => b.toNat + 256 * bytesToNat bs

/-- A byte string on a port of n bits: port bit i is bit address i (rules R32, R33). -/
def portOfBytes (n : Nat) (bs : List Byte) : BitVec n := BitVec.ofNat n (bytesToNat bs)

/-- The bytes of a port value, byte 0 first (rules R8, R33); the buffer `TAGOUT` is this view of `tag_out`. -/
def bytesOfPort {n : Nat} (v : BitVec n) : List Byte :=
  (List.range (n / 8)).map fun k => v.extractLsb' (8 * k) 8

/-- The pad in LFSR[127:96]: bytes FF FF FF 7F, the number 0x7FFFFFFF (rule R35). -/
def lfsrPad : BitVec 32 := 0x7FFFFFFF

/-- The bit address of the `pos`-th message bit (rule R34): rising bytes, and inside a byte rising bits for `lsb_first`,
falling bits for `msb_first`. -/
def msgAddr (o : MsgBitOrder) (pos : Nat) : Nat :=
  match o with
  | .lsbFirst => pos
  | .msbFirst => 8 * (pos / 8) + (7 - pos % 8)

/-- The eight message bits of a byte, in the order they are processed (rule R34). -/
def byteBits (o : MsgBitOrder) (b : Byte) : List Bool :=
  (List.range 8).map fun i => b.getLsbD (msgAddr o i)

/-- A byte from its eight message bits, in the order they were processed (rules R34, R55). -/
def byteOfBits (o : MsgBitOrder) (bits : List Bool) : Byte :=
  packBits 8 fun i => bits.getD (msgAddr o i) false

/-- A byte with one more output bit in it: the bit of the `pos`-th text command goes to the place its operand had in its own
byte (rules R34, R55, R122). -/
def assembleBit (o : MsgBitOrder) (pos : Nat) (v : Bool) (b : Byte) : Byte := setBit b (msgAddr o pos % 8) v

/-- The message bits of a byte string (rule R34). -/
def stringBits (o : MsgBitOrder) (bs : List Byte) : List Bool := bs.flatMap (byteBits o)

end Sys2Proof.Machine
end

