-- ==== Sys2Proof/Machine/Ops.lean ====
section
/-! DEFINITION. The named operations over buffers and registers, taking a fault, and the return from one (rules R27, R31, R126, R146, R160). -/

namespace Sys2Proof.Machine

/-- `BufRead(B, k)` (rule R31); none (the model refuses) outside the buffer. -/
def bufRead (b : List Byte) (k : Nat) : Option Byte := b[k]?

/-- `BufWrite(B, k, v)` (rule R31); none (the model refuses) outside the buffer. -/
def bufWrite (b : List Byte) (k : Nat) (v : Byte) : Option (List Byte) :=
  if k < b.length then some (b.set k v) else none

/-- `BufBit(B, i)` (rule R8): bit `i mod 8` of byte `i div 8`. -/
def bufBit (b : List Byte) (i : Nat) : Option Bool := (bufRead b (i / 8)).map fun x => x.getLsbD (i % 8)

/-- The byte form of `set_bit` on a buffer (rule R65): byte `i div 8` has its bit `i mod 8` replaced. -/
def bufSetBit (b : List Byte) (i : Nat) (v : Bool) : Option (List Byte) :=
  match bufRead b (i / 8) with
  | none => none
  | some x => bufWrite b (i / 8) (setBit x (i % 8) v)

/-- The buffer `KEY` behind the port `key` (rules R30, R33). -/
def State.keyBuf (s : State) : List Byte := bytesOfPort s.key

/-- The buffer `NONCE` behind the port `nonce` (rules R30, R33). -/
def State.nonceBuf (s : State) : List Byte := bytesOfPort s.nonce

/-- The buffer `TAGIN` behind the port `tag_in` (rules R30, R33). -/
def State.tagInBuf (s : State) : List Byte := bytesOfPort s.tagIn

/-- The buffer `TAGOUT` behind the port `tag_out` (rules R30, R33). -/
def State.tagOutBuf (s : State) : List Byte := bytesOfPort s.tago

/-- Zero bytes of the same length (rule R131). -/
def zeroBytes (b : List Byte) : List Byte := List.replicate b.length 0

/-- The end of a step that outputs no bit: `dout_valid` = 0, and `dout` is a free value (rules R21, R168; log entry 3). -/
def State.quiet (s : State) : State :=
  { s with doutValid := false, dout := Config.undrivenDout s.freeCount, freeCount := s.freeCount + 1 }

/-- The registers "discarded" (rule R27): zero when `ZEROIZE` is true, else as they were. -/
def discardRegs (c : Config) (d : Datapath) : Datapath := if c.zeroize then Datapath.zero else d

/-- Fault entry (rule R146), the one way a fault is taken. Nothing is saved and there is no vector: control goes to phase
ERROR. -/
def takeFault (code : ErrCode) (s : State) : State :=
  { s.quiet.clearResult with
    err := true, errcode := code, wipe := true, ctr := 0, dp := discardRegs s.cfg s.dp, phase := .error }

/-- The effect of CLEAR (rule R126), the one return from ERROR besides reset (rule R149). -/
def returnToIdle (s : State) : State :=
  { s.quiet.clearResult with
    phase := .idle, ctr := 0, dir := false, err := false, errcode := .none, wipe := false, dp := discardRegs s.cfg s.dp }

/-- The reset step (rules R28, R160, R161): every piece of the engine's state takes its reset value, a pending command is
discarded, the orchestrator goes idle and does not touch `TXTOUT`. The wide input ports, the buffers and what the host does
next are the host's. -/
def resetStep (s : State) : State :=
  { State.reset with
    key := s.key, nonce := s.nonce, tagIn := s.tagIn, mem := s.mem, cfg := s.cfg, host := s.host, freeCount := s.freeCount }

end Sys2Proof.Machine
end

