-- ==== Sys2Proof/Machine/Admission.lean ====
section
/-! DEFINITION. Admission by phase and direction, the whole of the block's control flow (rules R49, R52, R53). -/

namespace Sys2Proof.Machine

/-- The table of rule R52: the phase a command leaves when it is admitted in a phase and direction; none where the table
has P. INIT and ERROR have no column. -/
def phaseAfter (i : Instr) (p : Phase) (dir : Bool) : Option Phase :=
  match i, p with
  | _, .init => none
  | _, .error => none
  | .nop, p => some p
  | .load _, .idle => some .init
  | .load _, .done => some .init
  | .adbit _, .ad => some .ad
  | .encbit _, .ad => if dir then none else some .text
  | .encbit _, .text => if dir then none else some .text
  | .decbit _, .ad => if dir then some .text else none
  | .decbit _, .text => if dir then some .text else none
  | .pad, .ad => some .padded
  | .pad, .text => some .padded
  | .tag, .padded => if dir then none else some .done
  | .verify, .padded => if dir then some .done else none
  | .clear, _ => some .idle
  | _, _ => none

/-- How a legal command other than NOP and CLEAR is executed (rules R21, R49, R53): in INIT it is not taken; in ERROR it is
consumed without effect; where it is not admitted it raises ProtocolViolation; otherwise its own rule, `run`, is followed. -/
def ifAdmitted (i : Instr) (run : State → State) (s : State) : Result :=
  match s.phase with
  | .init => .next s
  | .error => .next s.quiet
  | p => if (phaseAfter i p s.dir).isSome then .next (run s) else .next (takeFault .protocolViolation s)

end Sys2Proof.Machine
end

