-- ==== Sys2Proof/Machine/Feedback.lean ====
section
/-! DEFINITION. FeedbackFunctions: h, L, F and the keystream bit, and their batched forms (rules R70 to R78). -/

namespace Sys2Proof.Machine

/-- Input x_k of `h`, at bit address `a` of NFSR or of LFSR as `H_NFSR_POS` says (rule R70). -/
def hInput (c : Config) (l n : Reg128) (k a : Nat) : Bool := (if c.hNfsr.getLsbD k then n else l).getLsbD a

/-- `h(LFSR, NFSR)` (rule R70). -/
def feedbackH (c : Config) (l n : Reg128) : Bool :=
  let x0 := hInput c l n 0 12
  let x1 := hInput c l n 1 8
  let x2 := hInput c l n 2 13
  let x3 := hInput c l n 3 20
  let x4 := hInput c l n 4 95
  let x5 := hInput c l n 5 42
  let x6 := hInput c l n 6 60
  let x7 := hInput c l n 7 79
  let x8 := hInput c l n 8 94
  (x0 && x1) ^^ (x2 && x3) ^^ (x4 && x5) ^^ (x6 && x7) ^^ (x0 && x4 && x8)

/-- `L(LFSR)` (rule R71). -/
def feedbackL (l : Reg128) : Bool :=
  l.getLsbD 0 ^^ l.getLsbD 7 ^^ l.getLsbD 38 ^^ l.getLsbD 70 ^^ l.getLsbD 81 ^^ l.getLsbD 96

/-- A product of taps (rule R73). -/
def tapProduct (n : Reg128) (taps : List Nat) : Bool := taps.foldr (fun t acc => n.getLsbD t && acc) true

/-- `F_NFSR(NFSR)` (rules R72 to R74): the exclusive-or of its products. -/
def fNfsr (terms : List (List Nat)) (n : Reg128) : Bool := terms.foldr (fun t acc => tapProduct n t ^^ acc) false

/-- `F(LFSR, NFSR)` (rule R72). -/
def feedbackF (c : Config) (l n : Reg128) : Bool := l.getLsbD 0 ^^ fNfsr c.fNfsr n

/-- `ksb(LFSR, NFSR)`, the keystream bit (rule R75). -/
def ksb (c : Config) (l n : Reg128) : Bool :=
  feedbackH c l n ^^ l.getLsbD 93 ^^ n.getLsbD 2 ^^ n.getLsbD 15 ^^ n.getLsbD 36 ^^ n.getLsbD 45 ^^ n.getLsbD 64
    ^^ n.getLsbD 73 ^^ n.getLsbD 89

/-- One tap of a batched form: lanes `a` to `a + w - 1` of a register (rule R77). Every tap of the spec lies inside
(rule R73). -/
def tapW (w : Width) (r : Reg128) (a : Nat) : BitVec w.bits := r.extractLsb' a w.bits

/-- Input x_k of the batched `h` (rules R70, R77). -/
def hInputW (w : Width) (c : Config) (l n : Reg128) (k a : Nat) : BitVec w.bits :=
  tapW w (if c.hNfsr.getLsbD k then n else l) a

/-- `h_w` (rule R77). -/
def feedbackHW (w : Width) (c : Config) (l n : Reg128) : BitVec w.bits :=
  let x0 := hInputW w c l n 0 12
  let x1 := hInputW w c l n 1 8
  let x2 := hInputW w c l n 2 13
  let x3 := hInputW w c l n 3 20
  let x4 := hInputW w c l n 4 95
  let x5 := hInputW w c l n 5 42
  let x6 := hInputW w c l n 6 60
  let x7 := hInputW w c l n 7 79
  let x8 := hInputW w c l n 8 94
  (x0 &&& x1) ^^^ (x2 &&& x3) ^^^ (x4 &&& x5) ^^^ (x6 &&& x7) ^^^ (x0 &&& x4 &&& x8)

/-- `L_w` (rule R77). -/
def feedbackLW (w : Width) (l : Reg128) : BitVec w.bits :=
  tapW w l 0 ^^^ tapW w l 7 ^^^ tapW w l 38 ^^^ tapW w l 70 ^^^ tapW w l 81 ^^^ tapW w l 96

/-- A batched product of taps (rule R77). -/
def tapProductW (w : Width) (n : Reg128) (taps : List Nat) : BitVec w.bits :=
  taps.foldr (fun t acc => tapW w n t &&& acc) (BitVec.allOnes w.bits)

/-- The batched `F_NFSR` (rule R77). -/
def fNfsrW (w : Width) (terms : List (List Nat)) (n : Reg128) : BitVec w.bits :=
  terms.foldr (fun t acc => tapProductW w n t ^^^ acc) 0

/-- `F_w` (rule R77). -/
def feedbackFW (w : Width) (c : Config) (l n : Reg128) : BitVec w.bits := tapW w l 0 ^^^ fNfsrW w c.fNfsr n

/-- `ksb_w` (rule R77). -/
def ksbW (w : Width) (c : Config) (l n : Reg128) : BitVec w.bits :=
  feedbackHW w c l n ^^^ tapW w l 93 ^^^ tapW w n 2 ^^^ tapW w n 15 ^^^ tapW w n 36 ^^^ tapW w n 45 ^^^ tapW w n 64
    ^^^ tapW w n 73 ^^^ tapW w n 89

end Sys2Proof.Machine
end

