-- ==== Sys2Proof/Machine/Engine.lean ====
section
/-! DEFINITION. CipherEngine: `clock`, `update`, the generation clock, their batched form, and NOP (rules R80 to R86). -/

namespace Sys2Proof.Machine

/-- The three bits `clock` returns (rule R80). -/
structure ClockBits where
  /-- The keystream bit. -/
  y : Bool
  /-- The output of `L`. -/
  s : Bool
  /-- The output of `F`. -/
  b : Bool
  deriving DecidableEq, Repr

/-- `clock()` (rule R80): a pure read of LFSR and NFSR. -/
def clock (c : Config) (d : Datapath) : ClockBits :=
  ⟨ksb c d.lfsr d.nfsr, feedbackL d.lfsr, feedbackF c d.lfsr d.nfsr⟩

/-- `update(l_bit, f_bit)` (rule R81). -/
def update (lBit fBit : Bool) (d : Datapath) : Datapath :=
  { d with lfsr := shiftIn1 d.lfsr lBit, nfsr := shiftIn1 d.nfsr fBit }

/-- The registers after a generation clock (rule R82): `clock`, then `update` with its own `s` and `b`. -/
def genClock (c : Config) (d : Datapath) : Datapath := update (clock c d).s (clock c d).b d

/-- `k` generation clocks. -/
def genClocks (c : Config) : Nat → Datapath → Datapath
  | 0, d => d
  | k + 1, d => genClocks c k (genClock c d)

/-- A batch of `w` generation clocks (rules R77, R85). -/
def genClockW (w : Width) (c : Config) (d : Datapath) : Datapath :=
  { d with
    lfsr := shiftIn w d.lfsr (feedbackLW w d.lfsr)
    nfsr := shiftIn w d.nfsr (feedbackFW w c d.lfsr d.nfsr) }

/-- `NOP` (rules R52, R53, R86): nothing changes, in ERROR too, and no bit is output. In INIT no command is taken
(rule R21). -/
def execNop (s : State) : Result :=
  match s.phase with
  | .init => .next s
  | _ => .next s.quiet

end Sys2Proof.Machine
end

