-- ==== Sys2Proof/Machine/Initializer.lean ====
section
/-! DEFINITION. Initializer: LOAD and the 512 initialisation steps (rules R90 to R99). -/

namespace Sys2Proof.Machine

/-- The registers after LOAD (lines 2 to 4 of rule R91): the key in NFSR, the nonce under the pad in LFSR; ACC and AUTH keep
what they held. -/
def loadDatapath (key : Reg128) (nonce : NonceWord) (d : Datapath) : Datapath :=
  { d with lfsr := lfsrPad ++ nonce, nfsr := key }

/-- What LOAD does when admitted (rule R91). -/
def loadEffect (d : Bool) (s : State) : State :=
  { s.quiet.clearResult with
    k := s.key
    dp := loadDatapath s.key s.nonce s.dp
    dir := d
    ctr := 0
    wipe := false
    phase := .init }

/-- `LOAD d` (rule R91). -/
def execLoad (d : Bool) (s : State) : Result := ifAdmitted (.load d) (loadEffect d) s

/-- A sub-phase A step (rule R93). -/
def initStepA (c : Config) (d : Datapath) : Datapath :=
  let q := clock c d
  update (q.s ^^ q.y) (q.b ^^ q.y) d

/-- A sub-phase B step, j = t - 320 (rule R94). -/
def initStepB (c : Config) (k : Reg128) (j : Nat) (d : Datapath) : Datapath :=
  let q := clock c d
  update (q.s ^^ q.y ^^ k.getLsbD (j + 64)) (q.b ^^ q.y ^^ k.getLsbD j) d

/-- A sub-phase C step, i = t - 384 (rule R95). -/
def initStepC (c : Config) (i : Nat) (d : Datapath) : Datapath :=
  let q := clock c d
  update q.s q.b { d with acc := setBit d.acc i q.y }

/-- A sub-phase D step, i = t - 448 (rule R96). -/
def initStepD (c : Config) (i : Nat) (d : Datapath) : Datapath :=
  let q := clock c d
  update q.s q.b { d with auth := setBit d.auth i q.y }

/-- Initialisation step `t` on the registers (rules R16, R92). -/
def initDatapathStep (c : Config) (k : Reg128) (t : Nat) (d : Datapath) : Datapath :=
  if t < 320 then initStepA c d
  else if t < 384 then initStepB c k (t - 320) d
  else if t < 448 then initStepC c (t - 384) d
  else initStepD c (t - 448) d

/-- One autonomous step of the initialiser (rules R90, R92, R97): step `t = ctr`, and AD after step 511. It outputs no
bit. -/
def initStep (s : State) : State :=
  { s.quiet with
    dp := initDatapathStep s.cfg s.k s.ctr.toNat s.dp
    ctr := s.ctr + 1
    phase := if s.ctr.toNat = 511 then .ad else .init }

/-- `n` initialisation steps from step `t` on (rule R92). -/
def initDatapathSteps (c : Config) (k : Reg128) : Nat → Nat → Datapath → Datapath
  | 0, _, d => d
  | n + 1, t, d => initDatapathSteps c k n (t + 1) (initDatapathStep c k t d)

/-- All 512 steps (rule R92). -/
def initDatapath (c : Config) (k : Reg128) (d : Datapath) : Datapath := initDatapathSteps c k 512 0 d

/-- The w bits of `v` written at bits i to i + w - 1 (rule R98). -/
def setWindow64 (w : Width) (a : Reg64) (i : Nat) (v : BitVec w.bits) : Reg64 :=
  (a &&& ~~~((BitVec.allOnes w.bits).setWidth 64 <<< i)) ||| (v.setWidth 64 <<< i)

/-- A batch of `w` initialisation steps that begins with step `t` (rule R98). -/
def initBatch (w : Width) (c : Config) (k : Reg128) (t : Nat) (d : Datapath) : Datapath :=
  let y := ksbW w c d.lfsr d.nfsr
  let l := feedbackLW w d.lfsr
  let f := feedbackFW w c d.lfsr d.nfsr
  if t < 320 then
    { d with lfsr := shiftIn w d.lfsr (l ^^^ y), nfsr := shiftIn w d.nfsr (f ^^^ y) }
  else if t < 384 then
    { d with
      lfsr := shiftIn w d.lfsr (l ^^^ y ^^^ tapW w k (t - 320 + 64))
      nfsr := shiftIn w d.nfsr (f ^^^ y ^^^ tapW w k (t - 320)) }
  else if t < 448 then
    { d with lfsr := shiftIn w d.lfsr l, nfsr := shiftIn w d.nfsr f, acc := setWindow64 w d.acc (t - 384) y }
  else
    { d with lfsr := shiftIn w d.lfsr l, nfsr := shiftIn w d.nfsr f, auth := setWindow64 w d.auth (t - 448) y }

end Sys2Proof.Machine
end

