-- ==== Sys2Proof/Machine/Authenticator.lean ====
section
/-! DEFINITION. Authenticator: the length prefix, the MAC law, the per-bit step, ADBIT and PAD (rules R100 to R108). -/

namespace Sys2Proof.Machine

/-- `bit_width(n)`: the number of binary digits of n (rule R100). -/
def bitWidth (n : Nat) : Nat := if n = 0 then 0 else Nat.log2 n + 1

/-- The low k bytes of n, most significant first (rule R100). -/
def bigEndianBytes : Nat → Nat → List Byte
  | 0, _ => []
  | k + 1, n => BitVec.ofNat 8 (n >>> (8 * k)) :: bigEndianBytes k n

/-- `encode_der(n)` (rule R100); none (the model refuses) for n of 2^64 or more. -/
def encodeDer (n : Nat) : Option (List Byte) :=
  if n < 128 then some [BitVec.ofNat 8 n]
  else if n < 2 ^ Config.lenw then
    let k := (bitWidth n + 7) / 8
    some ((0x80#8 ||| BitVec.ofNat 8 k) :: bigEndianBytes k n)
  else none

/-- The AD stream, `encode_der(len(AD)) ++ AD` (rule R9). -/
def adStream (ad : List Byte) : Option (List Byte) := (encodeDer ad.length).map fun p => p ++ ad

/-- `authenticate(msg_bit, auth_bit)`, the MAC law (rule R101). -/
def authenticate (msgBit authBit : Bool) (d : Datapath) : Datapath :=
  { d with acc := if msgBit then d.acc ^^^ d.auth else d.acc, auth := shiftIn64 d.auth authBit }

/-- The even keystream bit of the coming per-bit step (rule R103). -/
def evenBit (c : Config) (d : Datapath) : Bool := (clock c d).y

/-- The odd keystream bit of the coming per-bit step (rule R103). -/
def oddBit (c : Config) (d : Datapath) : Bool := (clock c (genClock c d)).y

/-- The per-bit step with authenticated bit `m` (rule R103): a generation clock, then a second clock whose keystream bit
goes to the MAC law, then its update. -/
def perBit (c : Config) (m : Bool) (d : Datapath) : Datapath :=
  genClock c (authenticate m (oddBit c d) (genClock c d))

/-- What ADBIT does when admitted (rule R104). -/
def adbitEffect (m : Bool) (s : State) : State := { s.quiet with dp := perBit s.cfg m s.dp }

/-- `ADBIT m` (rule R104). -/
def execAdbit (m : Bool) (s : State) : Result := ifAdmitted (.adbit m) (adbitEffect m) s

/-- What PAD does when admitted (rule R105): a full per-bit step with m = 1. -/
def padEffect (s : State) : State := { s.quiet with dp := perBit s.cfg true s.dp, phase := .padded }

/-- `PAD` (rule R105). -/
def execPad (s : State) : Result := ifAdmitted .pad padEffect s

/-- `AUTH_j` of the batched law: AUTH after the first j odd bits of the batch (rule R107). -/
def authLane (auth : Reg64) {n : Nat} (a : BitVec n) (j : Nat) : Reg64 :=
  (auth >>> j) ||| ((a.setWidth j).setWidth 64 <<< (64 - j))

/-- The batched MAC law (rule R107): `m` the message bits, `a` the odd keystream bits. -/
def authenticateW (w : Width) (m a : BitVec w.bits) (d : Datapath) : Datapath :=
  { d with
    acc := (List.range w.bits).foldl (fun acc j => if m.getLsbD j then acc ^^^ authLane d.auth a j else acc) d.acc
    auth := shiftIn64W w d.auth a }

end Sys2Proof.Machine
end

