-- ==== Sys2Proof/Machine/Text.lean ====
section
/-! DEFINITION. The text commands and the commands that end a transaction (rules R120 to R126). -/

namespace Sys2Proof.Machine

/-- A text command's effect: authenticate `p`, output `out` (rules R120, R121). -/
def textEffect (p out : Bool) (s : State) : State :=
  { s with dp := perBit s.cfg p s.dp, dout := out, doutValid := true, phase := .text }

/-- What ENCBIT does when admitted (rule R120): the ciphertext bit is output, the plaintext bit authenticated. -/
def encbitEffect (p : Bool) (s : State) : State := textEffect p (p ^^ evenBit s.cfg s.dp) s

/-- `ENCBIT p` (rule R120). -/
def execEncbit (p : Bool) (s : State) : Result := ifAdmitted (.encbit p) (encbitEffect p) s

/-- What DECBIT does when admitted (rule R121): the recovered bit is both output and authenticated. -/
def decbitEffect (c : Bool) (s : State) : State :=
  textEffect (c ^^ evenBit s.cfg s.dp) (c ^^ evenBit s.cfg s.dp) s

/-- `DECBIT c` (rule R121). -/
def execDecbit (c : Bool) (s : State) : Result := ifAdmitted (.decbit c) (decbitEffect c) s

/-- What TAG does when admitted (rule R124). -/
def tagEffect (s : State) : State :=
  { s.quiet with tago := s.dp.acc, tagv := true, phase := .done, dp := discardRegs s.cfg s.dp }

/-- `TAG` (rule R124). -/
def execTag (s : State) : Result := ifAdmitted .tag tagEffect s

/-- What VERIFY does when admitted (rule R125): a mismatch, AuthenticationFailure, is a result and not a fault
(rule R141). -/
def verifyEffect (s : State) : State :=
  { s.quiet with
    ok := s.dp.acc == s.tagIn
    okv := true
    wipe := if s.dp.acc == s.tagIn then s.wipe else true
    phase := .done
    dp := discardRegs s.cfg s.dp }

/-- `VERIFY` (rule R125). -/
def execVerify (s : State) : Result := ifAdmitted .verify verifyEffect s

/-- `CLEAR` (rules R52, R53, R126): acts in every phase in which commands are taken, ERROR included. -/
def execClear (s : State) : Result :=
  match s.phase with
  | .init => .next s
  | _ => .next (returnToIdle s)

end Sys2Proof.Machine
end

