-- ==== Sys2Proof/Machine/Dispatch.lean ====
section
/-! DEFINITION. The dispatcher: one arm per command. -/

namespace Sys2Proof.Machine

/-- The meaning of a command (rule R49 steps 1, 3 and 4; an illegal word is `takeIllegal`). -/
def exec (i : Instr) (s : State) : Host.Outcome State Fault Refusal :=
  match i with
  | .nop => Sys2Proof.Machine.execNop s
  | .load d => Sys2Proof.Machine.execLoad d s
  | .adbit m => Sys2Proof.Machine.execAdbit m s
  | .encbit p => Sys2Proof.Machine.execEncbit p s
  | .decbit c => Sys2Proof.Machine.execDecbit c s
  | .pad => Sys2Proof.Machine.execPad s
  | .tag => Sys2Proof.Machine.execTag s
  | .verify => Sys2Proof.Machine.execVerify s
  | .clear => Sys2Proof.Machine.execClear s

end Sys2Proof.Machine
end

