-- ==== Sys2Proof/Machine/Orchestrator.lean ====
section
/-! DEFINITION. Taking a command word, and the AeadOrchestrator as an agent of the machine: what it puts on the port, what it does with an output bit, and the release rule (rules R24, R45, R49, R122, R130 to R135, R142). -/

namespace Sys2Proof.Machine

/-- A word that is no command (rules R49, R50, R53): consumed without effect in ERROR, not taken in INIT, else
IllegalCommand. -/
def takeIllegal (s : State) : Result :=
  match s.phase with
  | .init => .next s
  | .error => .next s.quiet
  | _ => .next (takeFault .illegalCommand s)

/-- The execution of one command word (rules R45, R49). -/
def takeWord (w : CmdWord) (s : State) : Result :=
  match decode w with
  | none => takeIllegal s
  | some i => exec i s

/-- The command the orchestrator has on the port, or next puts there (rules R132, R133); a refusal where it would read
outside a buffer (rule R31). With stage `idle` it has none, and NOP stands for that. -/
def orchCommand (s : State) : Except Refusal Instr :=
  match s.orch.stage with
  | .idle => .ok .nop
  | .load => .ok (.load s.orch.decrypt)
  | .adStream =>
    match adStream s.mem.ad with
    | none => .error .lengthNotEncodable
    | some stream =>
      match bufBit stream (msgAddr s.cfg.msgBitOrder s.orch.pos) with
      | none => .error .bufferIndexOutOfRange
      | some m => .ok (.adbit m)
  | .text =>
    match bufBit s.mem.txtIn (msgAddr s.cfg.msgBitOrder s.orch.pos) with
    | none => .error .bufferIndexOutOfRange
    | some b => .ok (if s.orch.decrypt then .decbit b else .encbit b)
  | .pad => .ok .pad
  | .finish => .ok (if s.orch.decrypt then .verify else .tag)

/-- The orchestrator with its loop at the beginning of a stage, no output byte begun. -/
def State.toStage (s : State) (g : Stage) : State := { s with orch := { s.orch with stage := g, pos := 0, outByte := 0 } }

/-- The orchestrator's move when its command has been taken, `t` the state the engine left (rules R122, R132, R133): the
output bit of a text command goes into the byte being assembled, the eighth bit of a byte writes it whole, and the loop goes
on. A fault, or an engine found in ERROR, ends the transaction (rule R168). -/
def advanceOrchestrator (t : State) : Result :=
  if t.phase = .error then .next (t.toStage .idle)
  else
    match t.orch.stage with
    | .idle => .next t
    | .load => .next (t.toStage .adStream)
    | .adStream =>
      match adStream t.mem.ad with
      | none => .refused .lengthNotEncodable
      | some stream =>
        if t.orch.pos + 1 < 8 * stream.length then .next { t with orch := { t.orch with pos := t.orch.pos + 1 } }
        else if t.mem.txtIn.isEmpty then .next (t.toStage .pad)
        else .next (t.toStage .text)
    | .text =>
      let byte := assembleBit t.cfg.msgBitOrder t.orch.pos t.dout t.orch.outByte
      if t.orch.pos % 8 < 7 then .next { t with orch := { t.orch with pos := t.orch.pos + 1, outByte := byte } }
      else
        match bufWrite t.mem.txtOut (t.orch.pos / 8) byte with
        | none => .refused .bufferIndexOutOfRange
        | some out =>
          let t' := { t with mem := { t.mem with txtOut := out } }
          if t.orch.pos + 1 < 8 * t.mem.txtIn.length then
            .next { t' with orch := { t'.orch with pos := t.orch.pos + 1, outByte := 0 } }
          else .next (t'.toStage .pad)
    | .pad => .next (t.toStage .finish)
    | .finish => .next (t.toStage .idle)

/-- The state before a CLEAR holds a decrypt transaction that has not ended with `ok` = 1 (rules R126, R131). -/
def State.unreleasedDecrypt (s : State) : Bool :=
  s.dir && s.phase != .idle && !(s.phase == .done && s.ok)

/-- `TXTOUT` is to be zeroed after a command: `wipe` is 1, or a CLEAR has abandoned a decrypt transaction (rules R126, R131).
`s` is the state before the command, `t` the state after it. -/
def mustZero (s t : State) : Bool := t.wipe || (s.cmd == encode .clear && s.unreleasedDecrypt)

/-- The release rule (rules R126, R131). After a reset the orchestrator no longer knows M and cannot zero `TXTOUT` until the
next call (rule R161). -/
def release (s t : State) : State :=
  if t.orch.knowsM && mustZero s t then
    { t with mem := { t.mem with txtOut := zeroBytes t.mem.txtOut } }
  else t

/-- The length check of the wrapper (rules R135, R142). -/
def lengthsAllowed (decrypt : Bool) (key nonce tag ad : List Byte) : Bool :=
  key.length == Config.keyBytes && nonce.length == Config.nonceBytes
    && (!decrypt || tag.length == Config.tagBytes) && decide (ad.length < 2 ^ Config.lenw)

/-- A call of ENCRYPT or DECRYPT reaches the orchestrator (rules R130, R135, R142): with wrong lengths it issues nothing,
writes nothing and reports ContractViolation; else it takes the buffers, puts key, nonce and tag on the ports and goes to
its first line. `TXTOUT` is a buffer of M bytes, zero until written (log entry 6). -/
def startCall (decrypt : Bool) (key nonce tag ad text : List Byte) (s : State) : State :=
  if lengthsAllowed decrypt key nonce tag ad then
    { s with
      key := portOfBytes 128 key
      nonce := portOfBytes 96 nonce
      tagIn := if decrypt then portOfBytes 64 tag else s.tagIn
      mem := ⟨ad, text, zeroBytes text⟩
      orch := { stage := .load, pos := 0, outByte := 0, decrypt := decrypt, knowsM := true, report := .none } }
  else { s with orch := { s.orch with report := .contractViolation } }

/-- The command port is free: nothing is pending on it and no transaction of the orchestrator's runs. -/
def State.portFree (s : State) : Bool := s.orch.stage == .idle && !s.cmdValid

/-- The host's next move (rules R21, R130, R160; log entry 5). The host holds the port `key` during INIT (rule R166): a command
presented then leaves it as it is, and a call waits (rule R22, row U2 of 93_implementation_defined.md; log entry 8). -/
def hostMove (s : State) : State :=
  match s.host with
  | [] => s
  | .idle :: rest => { s with host := rest }
  | .reset :: rest => { s with host := rest, rst := true }
  | .withdraw :: rest => { s with host := rest, cmdValid := s.cmdValid && s.orch.stage != .idle }
  | .abandon :: rest => { s.toStage .idle with host := rest, cmdValid := true, cmd := encode .clear }
  | .command word key nonce tag :: rest =>
    if s.portFree then
      { s with host := rest, cmdValid := true, cmd := word, key := if s.cmdReady then key else s.key, nonce := nonce, tagIn := tag }
    else s
  | .encrypt key nonce ad text :: rest =>
    if s.portFree && s.cmdReady then startCall false key nonce [] ad text { s with host := rest } else s
  | .decrypt key nonce tag ad text :: rest =>
    if s.portFree && s.cmdReady then startCall true key nonce tag ad text { s with host := rest } else s

/-- The orchestrator puts its next command on the port, where it stays until it is taken (rules R21, R130). -/
def presentOrchestrator (s : State) : Result :=
  if s.orch.stage = .idle ∨ s.cmdValid = true then .next s
  else
    match orchCommand s with
    | .error r => .refused r
    | .ok i => .next { s with cmdValid := true, cmd := encode i }

/-- The input ports for the next period: the host moves, then the orchestrator. -/
def drivePorts (s : State) : Result := presentOrchestrator (hostMove { s with rst := false })

/-- What follows an outcome of the engine's. -/
def andThen (r : Result) (f : State → Result) : Result :=
  match r with
  | .next t => f t
  | .fault q => .fault q
  | .refused q => .refused q

/-- What follows a command that was taken in state `s`: the port is free again, the orchestrator goes on, the release rule
is applied, and the ports are driven for the next period. -/
def afterCommand (s : State) (r : Result) : Result :=
  andThen r fun t => andThen (advanceOrchestrator { t with cmdValid := false }) fun u => drivePorts (release s u)

/-- One period of the machine (rules R21, R45, R90, R160): reset wins; in INIT the initialiser steps and a command stays
pending; a command on the port is executed; else the block waits. -/
def machineStep (s : State) : Result :=
  if s.rst then drivePorts (resetStep s)
  else if s.phase = .init then drivePorts (initStep s)
  else if s.cmdValid then afterCommand s (takeWord s.cmd s)
  else drivePorts s.quiet

end Sys2Proof.Machine
end

