-- ==== Sys2Proof/Machine/Step.lean ====
section
/-! DEFINITION. The step, and the placing of a word where the next step takes it. -/

namespace Sys2Proof.Machine

/-- One step of the machine. -/
def step (s : State) : Host.Outcome State Fault Refusal := machineStep s

/-- The state with a command word on the port (rules R21, R45): there is no program memory, and the next step takes the word
from the port unless the initialiser runs (log entry 4). The word is the host's, so the orchestrator is at rest. -/
def State.withFetchWord (s : State) (nbits w : Nat) : State :=
  { s.toStage .idle with rst := false, cmdValid := true, cmd := BitVec.ofNat 8 (w % 2 ^ nbits) }

end Sys2Proof.Machine
end

