-- ==== Sys2Proof/Machine/Pseudo.lean ====
section
/-! DEFINITION. The pseudo-commands as command sequences (rule R55), and the two transactions as functions (rules R132, R133). -/

namespace Sys2Proof.Machine

/-- `ADBYTE B` (rule R55). -/
def adByte (o : MsgBitOrder) (b : Byte) : List Instr := (byteBits o b).map .adbit

/-- `ENCBYTE B` (rule R55). -/
def encByte (o : MsgBitOrder) (b : Byte) : List Instr := (byteBits o b).map .encbit

/-- `DECBYTE B` (rule R55). -/
def decByte (o : MsgBitOrder) (b : Byte) : List Instr := (byteBits o b).map .decbit

/-- `ADBYTES s` (rule R55). -/
def adBytes (o : MsgBitOrder) (bs : List Byte) : List Instr := bs.flatMap (adByte o)

/-- `ADLEN n` (rules R55, R100). -/
def adLen (o : MsgBitOrder) (n : Nat) : Option (List Instr) := (encodeDer n).map (adBytes o)

/-- The command sequence of ENCRYPT (`decrypt` false, rule R132) or DECRYPT (true, rule R133); WAITINIT is no command. -/
def transactionCommands (o : MsgBitOrder) (decrypt : Bool) (ad text : List Byte) : Option (List Instr) :=
  (adLen o ad.length).map fun len =>
    [.load decrypt] ++ len ++ adBytes o ad
      ++ text.flatMap (fun b => if decrypt then decByte o b else encByte o b)
      ++ [.pad, if decrypt then .verify else .tag]

/-- The registers after the per-bit steps of a list of authenticated bits (rules R102, R104). -/
def authBits (c : Config) : List Bool → Datapath → Datapath
  | [], d => d
  | m :: ms, d => authBits c ms (perBit c m d)

/-- The output bits of ENCBIT for each bit of a list, and the registers after them (rule R120). -/
def encBits (c : Config) : List Bool → Datapath → List Bool × Datapath
  | [], d => ([], d)
  | p :: ps, d =>
    let r := encBits c ps (perBit c p d)
    ((p ^^ evenBit c d) :: r.1, r.2)

/-- The output bits of DECBIT for each bit of a list, and the registers after them (rule R121). -/
def decBits (c : Config) : List Bool → Datapath → List Bool × Datapath
  | [], d => ([], d)
  | q :: qs, d =>
    let p := q ^^ evenBit c d
    let r := decBits c qs (perBit c p d)
    (p :: r.1, r.2)

/-- ENCBYTE (`decrypt` false) or DECBYTE on the registers: the output byte and the registers after it (rule R55). -/
def textByte (c : Config) (decrypt : Bool) (b : Byte) (d : Datapath) : Byte × Datapath :=
  let bits := byteBits c.msgBitOrder b
  let r := if decrypt then decBits c bits d else encBits c bits d
  (byteOfBits c.msgBitOrder r.1, r.2)

/-- Line 5 of rules R132 and R133: the output bytes of a text and the registers after it. -/
def textBytes (c : Config) (decrypt : Bool) : List Byte → Datapath → List Byte × Datapath
  | [], d => ([], d)
  | b :: bs, d =>
    let q := textByte c decrypt b d
    let r := textBytes c decrypt bs q.2
    (q.1 :: r.1, r.2)

/-- Lines 1 to 4 of rules R132 and R133: the registers when the text begins. The registers before the transaction, `d0`, do
not matter (rule R134). -/
def beforeText (c : Config) (key : Reg128) (nonce : NonceWord) (stream : List Byte) (d0 : Datapath) : Datapath :=
  authBits c (stringBits c.msgBitOrder stream) (initDatapath c key (loadDatapath key nonce d0))

/-- Lines 1 to 6 of rules R132 and R133: the output bytes, and ACC after PAD, which is the tag; none when the length of the
associated data has no prefix. -/
def runTransaction (c : Config) (decrypt : Bool) (key : Reg128) (nonce : NonceWord) (ad text : List Byte) (d0 : Datapath) :
    Option (List Byte × Reg64) :=
  (adStream ad).map fun stream =>
    let r := textBytes c decrypt text (beforeText c key nonce stream d0)
    (r.1, (perBit c true r.2).acc)

/-- `ENCRYPT` (rule R132): the ciphertext and the tag. -/
def encryptTransaction (c : Config) (key : Reg128) (nonce : NonceWord) (ad text : List Byte) : Option (List Byte × Reg64) :=
  runTransaction c false key nonce ad text Datapath.zero

/-- `DECRYPT` (rules R131, R133): the plaintext and true, or zero bytes and false. -/
def decryptTransaction (c : Config) (key : Reg128) (nonce : NonceWord) (tag : Reg64) (ad text : List Byte) :
    Option (List Byte × Bool) :=
  (runTransaction c true key nonce ad text Datapath.zero).map fun r =>
    if r.2 == tag then (r.1, true) else (zeroBytes r.1, false)

/-- Every second bit of two batches of w keystream bits, `y0` the earlier: the even lanes, the text mask, for `odd` = 0, and
the odd lanes, the authentication bits, for `odd` = 1 (rule R85). -/
def lanes (w : Width) (y0 y1 : BitVec w.bits) (odd : Nat) : BitVec w.bits :=
  packBits w.bits fun j =>
    if 2 * j + odd < w.bits then y0.getLsbD (2 * j + odd) else y1.getLsbD (2 * j + odd - w.bits)

/-- w text bits as a stride-w implementation takes them (rules R55, R85, R107): two batches of w engine clocks, the even lanes
mask the text, the odd lanes go to the batched MAC law with the plaintext bits. With w = 8 and `lsb_first` it is a whole
text byte. -/
def textStride (w : Width) (c : Config) (decrypt : Bool) (b : BitVec w.bits) (d : Datapath) : BitVec w.bits × Datapath :=
  let d1 := genClockW w c d
  let y0 := ksbW w c d.lfsr d.nfsr
  let y1 := ksbW w c d1.lfsr d1.nfsr
  let out := b ^^^ lanes w y0 y1 0
  (out, authenticateW w (if decrypt then out else b) (lanes w y0 y1 1) (genClockW w c d1))

end Sys2Proof.Machine
end

