-- ==== Sys2Proof/Safety.lean ====
section
/-! DEFINITION. What claims are stated in: the parts of a state, the invariants of the machine, and when two states look the same at the ports. -/

namespace Sys2Proof.Machine

/-- The engine has taken a fault and not been cleared (rule R140): a run through such a state is not a good run
(rule R143). -/
def State.faulted (s : State) : Bool := s.phase == .error

/-- The engine's own part of a state: everything of rules R10 to R22 but the input ports and the key. -/
structure EngineView where
  dp : Datapath
  phase : Phase
  ctr : BitVec 9
  dir : Bool
  okv : Bool
  ok : Bool
  tagv : Bool
  err : Bool
  errcode : ErrCode
  wipe : Bool
  tago : Reg64
  k : Reg128
  dout : Bool
  doutValid : Bool
  deriving DecidableEq, Repr

/-- The engine's part of a state. -/
def State.engine (s : State) : EngineView :=
  ⟨s.dp, s.phase, s.ctr, s.dir, s.okv, s.ok, s.tagv, s.err, s.errcode, s.wipe, s.tago, s.k, s.dout, s.doutValid⟩

/-- A command is taken in the coming step (rule R21): `cmd_valid` = 1, `cmd_ready` = 1 and no reset. -/
def State.takesCommand (s : State) : Bool := !s.rst && s.cmdReady && s.cmdValid

/-- The orchestrator, when it runs a transaction, has a command on the port (rules R21, R130). -/
def State.driven (s : State) : Prop := s.orch.stage = .idle ∨ s.cmdValid = true

/-- What the sequencer and the flags hold between steps (rules R15 to R19, R27, R140, R141, R146). -/
structure EngineInv (s : State) : Prop where
  /-- Outside INIT `ctr` is 0 (rule R16). -/
  ctr_zero : s.phase ≠ .init → s.ctr = 0
  /-- `err` is 1 exactly in ERROR (rules R18, R146). -/
  err_iff : s.err = true ↔ s.phase = .error
  /-- `errcode` is 1 or 2 in ERROR (rules R140, R146). -/
  code_error : s.phase = .error → s.errcode = .illegalCommand ∨ s.errcode = .protocolViolation
  /-- `errcode` is 0 elsewhere (rules R18, R140). -/
  code_none : s.phase ≠ .error → s.errcode = .none
  /-- `okv` is 1 exactly after VERIFY (rules R18, R125). -/
  okv_iff : s.okv = true ↔ s.phase = .done ∧ s.dir = true
  /-- `tagv` is 1 exactly after TAG (rules R18, R124). -/
  tagv_iff : s.tagv = true ↔ s.phase = .done ∧ s.dir = false
  /-- `ok` is 1 only while it is valid (rule R18). -/
  ok_valid : s.ok = true → s.okv = true
  /-- `wipe` is 1 exactly in ERROR and after a mismatch (rules R18, R125, R146). -/
  wipe_iff : s.wipe = true ↔ s.phase = .error ∨ (s.okv = true ∧ s.ok = false)
  /-- The latch holds zero unless a tag is valid (rule R19). -/
  tago_zero : s.tagv = false → s.tago = 0
  /-- In IDLE there is no transaction and `dir` is 0 (rules R28, R126). -/
  idle_dir : s.phase = .idle → s.dir = false
  /-- `dout_valid` is 1 only in the step of a text command, which leaves TEXT (rules R21, R120, R121). -/
  dout_text : s.doutValid = true → s.phase = .text
  /-- In DONE and ERROR the registers are zero when `ZEROIZE` is true (rule R27). -/
  discarded : s.cfg.zeroize = true → s.phase = .done ∨ s.phase = .error → s.dp = Datapath.zero

/-- What the orchestrator, its buffers and the port `key` hold between steps (rules R22, R24, R30, R130 to R133, R166). -/
structure OrchInv (s : State) : Prop where
  /-- In INIT the port `key` still carries `K` (rules R22, R166; log entry 8). -/
  key_held : s.phase = .init → s.k = s.key
  /-- The sizes of the buffers (rules R6, R30). -/
  mem_wf : s.mem.wf = true
  /-- While `wipe` is 1 and the orchestrator knows M every byte of `TXTOUT` is 0 (rules R131, R161; log entry 10). -/
  wiped : s.wipe = true → s.orch.knowsM = true → ∀ b ∈ s.mem.txtOut, b = 0
  /-- A transaction of the orchestrator's has its M (rules R130, R161). -/
  knows_m : s.orch.stage ≠ .idle → s.orch.knowsM = true
  /-- A running transaction has its next command on the port (rules R21, R130). -/
  presented : s.orch.stage ≠ .idle → s.cmdValid = true ∧ ∃ i, orchCommand s = .ok i ∧ s.cmd = encode i
  /-- The AD stream is sent in INIT (waiting) and AD, with its position inside the stream (rules R9, R132). -/
  ad_stage : s.orch.stage = .adStream → (s.phase = .init ∨ s.phase = .ad) ∧ s.dir = s.orch.decrypt ∧
    ∃ stream, adStream s.mem.ad = some stream ∧ s.orch.pos < 8 * stream.length
  /-- The text is sent in AD and TEXT, with its position inside the text (rules R132, R133). -/
  text_stage : s.orch.stage = .text → (s.phase = .ad ∨ s.phase = .text) ∧ s.dir = s.orch.decrypt ∧
    s.orch.pos < 8 * s.mem.txtIn.length
  /-- PAD is sent in AD or TEXT (rules R105, R132). -/
  pad_stage : s.orch.stage = .pad → (s.phase = .ad ∨ s.phase = .text) ∧ s.dir = s.orch.decrypt
  /-- TAG or VERIFY is sent in PADDED (rules R124, R125). -/
  finish_stage : s.orch.stage = .finish → s.phase = .padded ∧ s.dir = s.orch.decrypt

/-- The invariant of the whole machine. -/
structure Inv (s : State) : Prop where
  engine : EngineInv s
  orch : OrchInv s

/-- The datapath contents that a later output can still depend on (rules R27, R29): nothing outside a transaction; in INIT the
feedback registers and the bits of ACC and AUTH already written; after it all four registers. -/
def sameLiveData (p : Phase) (t : Nat) (d e : Datapath) : Prop :=
  match p with
  | .idle => True
  | .done => True
  | .error => True
  | .init => d.lfsr = e.lfsr ∧ d.nfsr = e.nfsr ∧
      (∀ i, i < 64 → i + 384 < t → d.acc.getLsbD i = e.acc.getLsbD i) ∧
      (∀ i, i < 64 → i + 448 < t → d.auth.getLsbD i = e.auth.getLsbD i)
  | .ad => d = e
  | .text => d = e
  | .padded => d = e

/-- Two states that differ at most in `ZEROIZE` and in datapath contents that no later output can depend on (rules R27, R29):
every flag, every port, the buffers and the orchestrator are the same. -/
def sameAtPorts (s t : State) : Prop :=
  ∃ (z : Bool) (d : Datapath),
    t = { s with cfg := { s.cfg with zeroize := z }, dp := d } ∧ sameLiveData s.phase s.ctr.toNat s.dp d

/-- Two outcomes that are the same at the ports. -/
def sameOutcome (r q : Result) : Prop :=
  match r, q with
  | .next s, .next t => sameAtPorts s t
  | .refused a, .refused b => a = b
  | _, _ => False

/-- The state of an outcome. -/
def nextOf : Result → Option State
  | .next s => some s
  | .fault _ => none
  | .refused _ => none

end Sys2Proof.Machine
end

