-- ==== Sys2Proof/Certificates/Slice0/Obligations.lean ====
section
/-! DEFINITION. The statements for the provers, and the few functions they are written with: the spec's own tables and pseudocode, written here apart from the model's meanings. -/

namespace Sys2Proof.Machine.Spec

/-- A state with nothing changed but the output bit, which is not valid and whose value `o` is free (rules R21, R168). `n` is the
model's counter of free values. -/
def noEffect (o : Bool) (n : Nat) (s : State) : State := { s with doutValid := false, dout := o, freeCount := n }

/-- The state rule R146 gives after fault entry. -/
def faultState (code : ErrCode) (o : Bool) (n : Nat) (s : State) : State :=
  { s with
    err := true, errcode := code
    ok := false, okv := false, tagv := false, tago := 0
    wipe := true
    ctr := 0
    dp := if s.cfg.zeroize = true then ⟨0, 0, 0, 0⟩ else s.dp
    phase := .error
    doutValid := false, dout := o, freeCount := n }

/-- The command raises ProtocolViolation (rules R144, R146). -/
def Violates (i : Instr) (s : State) : Prop := ∃ o n, exec i s = .next (faultState .protocolViolation o n s)

/-- The command is consumed without effect (rule R53). -/
def Ignored (i : Instr) (s : State) : Prop := ∃ o n, exec i s = .next (noEffect o n s)

/-- What a command other than NOP and CLEAR does where it is not admitted: ProtocolViolation, or nothing in ERROR (rules R52, R53). -/
def ElsewhereRefused (i : Instr) (admitted : Prop) (s : State) : Prop :=
  (s.phase ≠ .init → s.phase ≠ .error → ¬ admitted → Violates i s) ∧ (s.phase = .error → Ignored i s)

/-- The per-bit step of rule R103, line by line; the authenticated bit may depend on the even keystream bit. -/
def perBitLines (c : Config) (m : Bool → Bool) (d : Datapath) : Datapath :=
  let q0 := clock c d
  let d1 := update q0.s q0.b d
  let q1 := clock c d1
  let d2 := authenticate (m q0.y) q1.y d1
  update q1.s q1.b d2

/-- The table of rule R52, row by row: the phase the command leaves, none where the table has P. -/
def tableR52 (i : Instr) (p : Phase) (dir : Bool) : Option Phase :=
  match i with
  | .nop => some p
  | .load _ => if p = .idle ∨ p = .done then some .init else none
  | .adbit _ => if p = .ad then some .ad else none
  | .encbit _ => if dir = false ∧ (p = .ad ∨ p = .text) then some .text else none
  | .decbit _ => if dir = true ∧ (p = .ad ∨ p = .text) then some .text else none
  | .pad => if p = .ad ∨ p = .text then some .padded else none
  | .tag => if dir = false ∧ p = .padded then some .done else none
  | .verify => if dir = true ∧ p = .padded then some .done else none
  | .clear => some .idle

/-- The rows of rule R48 as match and mask: the command a word selects. -/
def rowsR48 (w : CmdWord) : Option Instr :=
  if w &&& 0xFF#8 = 0x00#8 then some .nop
  else if w &&& 0xFE#8 = 0x10#8 then some (.load (w.getLsbD 0))
  else if w &&& 0xFE#8 = 0x20#8 then some (.adbit (w.getLsbD 0))
  else if w &&& 0xFE#8 = 0x30#8 then some (.encbit (w.getLsbD 0))
  else if w &&& 0xFE#8 = 0x40#8 then some (.decbit (w.getLsbD 0))
  else if w &&& 0xFF#8 = 0x50#8 then some .pad
  else if w &&& 0xFF#8 = 0x60#8 then some .tag
  else if w &&& 0xFF#8 = 0x70#8 then some .verify
  else if w &&& 0xFF#8 = 0x80#8 then some .clear
  else none

/-- The thirteen legal words, as rule R48 lists them. -/
def legalWords : List CmdWord :=
  [0x00, 0x10, 0x11, 0x20, 0x21, 0x30, 0x31, 0x40, 0x41, 0x50, 0x60, 0x70, 0x80]

/-- The bits of a value of n bits, bit 0 first. -/
def bitsOf {n : Nat} (v : BitVec n) : List Bool := (List.range n).map fun i => v.getLsbD i

/-- What a step leaves of the engine when it takes one initialisation step with new registers `d` (rules R16, R92, R97). -/
def initialised (d : Datapath) (t : State) (s : State) : EngineView :=
  { s.engine with
    dp := d, ctr := s.ctr + 1, phase := if s.ctr.toNat = 511 then .ad else .init, doutValid := false, dout := t.dout }

end Sys2Proof.Machine.Spec

open Sys2Proof Sys2Proof.Machine Sys2Proof.Machine.Spec

/-- The decoder reads exactly the rows of the opcode map (formalises R48). -/
def Obligations.DecodeFollowsOpcodeMap : Prop :=
  ∀ w : CmdWord, decode w = rowsR48 w ∧ ((decode w).isSome = true ↔ w ∈ legalWords)

/-- Decoding and encoding are inverse to each other on every command and every word (rests on R46, R48, R51). -/
def Obligations.DecodeAndEncodeAreInverse : Prop :=
  ∀ (i : Instr) (w : CmdWord), (decode w = some i ↔ encode i = w) ∧ decodeTableWord 8 w.toNat = decode w

/-- A step takes the word on the port: exec of the decoded command, or IllegalCommand, and then the port is freed (rests on R21, R45, R49, R50, R53, R143). The model's choices: what follows the command in the same step, afterCommand, is the model's (log entries 5 and 10). -/
def Obligations.StepRunsDecodedInstruction : Prop :=
  ∀ s : State, s.rst = false → s.phase ≠ .init → s.cmdValid = true →
    step s = afterCommand s (takeWord s.cmd s) ∧
    ∃ t, takeWord s.cmd s = .next t ∧
      (∀ i, decode s.cmd = some i → exec i s = .next t) ∧
      (decode s.cmd = none → ∃ o n, t = if s.phase = .error then noEffect o n s else faultState .illegalCommand o n s) ∧
      (s.orch.stage = .idle → s.host = [] →
        ∃ u, step s = .next u ∧ u.engine = t.engine ∧ u.cmdValid = false ∧ u.rst = false ∧ u.orch.stage = .idle ∧
          u.mem = (release s t).mem)

/-- Whatever the host does next, a raw command leaves the engine as exec says (rests on R21, R45, R130). The model's choices: the host's moves are the model's (log entry 5). -/
def Obligations.HostMovesNeverChangeAnExecutedCommand : Prop :=
  ∀ (s t : State) (i : Instr), s.rst = false → s.phase ≠ .init → s.cmdValid = true → decode s.cmd = some i →
    s.orch.stage = .idle → exec i s = .next t → ∃ u, step s = .next u ∧ u.engine = t.engine

/-- A command presented in INIT changes nothing, raises nothing and stays pending (rests on R21, R90, R130, R145). The model's choices: the host's moves are the model's (log entry 5). -/
def Obligations.CommandIsHeldDuringInit : Prop :=
  ∀ s : State, s.rst = false → s.phase = .init → s.driven →
    ∃ t, step s = .next t ∧ t.engine = (initStep s).engine ∧
      (s.cmdValid = true → s.host.head? ≠ some .withdraw → s.host.head? ≠ some .abandon →
        t.cmdValid = true ∧ t.cmd = s.cmd) ∧
      (s.host = [] → t.mem = s.mem)

/-- Without a command the block holds its state (rests on R21, R130, R155). The model's choices: the host's moves are the model's (log entry 5). -/
def Obligations.BlockHoldsItsStateWithoutACommand : Prop :=
  ∀ s : State, s.rst = false → s.phase ≠ .init → s.cmdValid = false → s.orch.stage = .idle →
    ∃ t, step s = .next t ∧ t.engine = { s.engine with doutValid := false, dout := t.dout } ∧
      (s.host = [] → t.mem = s.mem)

/-- A reset step gives every control register its reset value from any state and does not touch TXTOUT (rests on R28, R160, R161). The model's choices: the host's moves and what else a reset step leaves alone are the model's (log entries 5 and 18). -/
def Obligations.ResetWinsOverEverything : Prop :=
  ∀ s : State, s.rst = true →
    ∃ t, step s = .next t ∧ t.phase = .idle ∧ t.ctr = 0 ∧ t.dir = false ∧ t.okv = false ∧ t.ok = false ∧ t.tagv = false ∧
      t.err = false ∧ t.wipe = false ∧ t.errcode = .none ∧ t.tago = 0 ∧ t.dout = false ∧ t.doutValid = false ∧
      (s.host = [] → t.cmdValid = false ∧ t.orch.stage = .idle ∧ t.orch.knowsM = false ∧ t.mem = s.mem)

/-- The state after reset has the reset values of rule R28 (rests on R28). -/
def Obligations.ResetStateHasTheResetValues : Prop :=
  State.reset.phase = .idle ∧ State.reset.ctr = 0 ∧ State.reset.dir = false ∧ State.reset.okv = false ∧
    State.reset.ok = false ∧ State.reset.tagv = false ∧ State.reset.err = false ∧ State.reset.wipe = false ∧
    State.reset.errcode = .none ∧ State.reset.tago = 0 ∧ State.reset.dout = false ∧ State.reset.doutValid = false ∧
    State.reset.cmdReady = true ∧ State.reset.status = 0x0010#16

/-- NOP keeps every piece of state and outputs no bit, in every phase that takes commands (formalises R86). -/
def Obligations.NopChangesNothing : Prop :=
  encode .nop = 0x00#8 ∧ decode 0x01#8 = none ∧
    ∀ s : State, s.phase ≠ .init →
      (∃ o n, exec .nop s = .next (noEffect o n s)) ∧
      (s.phase ≠ .error → ∃ o n, takeWord 0x01#8 s = .next (faultState .illegalCommand o n s))

/-- LOAD puts key, nonce and pad into the registers and enters INIT (formalises R91). -/
def Obligations.LoadStartsATransaction : Prop :=
  encode (.load false) = 0x10#8 ∧ encode (.load true) = 0x11#8 ∧
    ∀ (d : Bool) (s : State),
      ((s.phase = .idle ∨ s.phase = .done) →
        ∃ o n l, exec (.load d) s = .next
            { s with
              k := s.key, dp := ⟨l, s.key, s.dp.acc, s.dp.auth⟩, dir := d, ctr := 0, okv := false, ok := false
              tagv := false, wipe := false, tago := 0, phase := .init, doutValid := false, dout := o, freeCount := n } ∧
          (∀ i, i < 96 → l.getLsbD i = s.nonce.getLsbD i) ∧ (∀ i, 96 ≤ i → i ≤ 126 → l.getLsbD i = true) ∧
          l.getLsbD 127 = false) ∧
      ElsewhereRefused (.load d) (s.phase = .idle ∨ s.phase = .done) s

/-- ADBIT draws two clocks, authenticates its operand and stays in AD (formalises R104). -/
def Obligations.AdbitAuthenticatesOneBit : Prop :=
  encode (.adbit false) = 0x20#8 ∧ encode (.adbit true) = 0x21#8 ∧
    ∀ (m : Bool) (s : State),
      (s.phase = .ad →
        ∃ o n, exec (.adbit m) s = .next
          { s with dp := perBitLines s.cfg (fun _ => m) s.dp, doutValid := false, dout := o, freeCount := n }) ∧
      ElsewhereRefused (.adbit m) (s.phase = .ad) s

/-- ENCBIT outputs the plaintext bit masked by the even keystream bit and authenticates the plaintext bit (formalises R120). -/
def Obligations.EncbitEncryptsAndAuthenticates : Prop :=
  encode (.encbit false) = 0x30#8 ∧ encode (.encbit true) = 0x31#8 ∧
    ∀ (p : Bool) (s : State),
      ((s.phase = .ad ∨ s.phase = .text) ∧ s.dir = false →
        exec (.encbit p) s = .next
          { s with
            dp := perBitLines s.cfg (fun _ => p) s.dp
            dout := p ^^ ksb s.cfg s.dp.lfsr s.dp.nfsr, doutValid := true, phase := .text }) ∧
      ElsewhereRefused (.encbit p) ((s.phase = .ad ∨ s.phase = .text) ∧ s.dir = false) s

/-- DECBIT outputs and authenticates the recovered plaintext bit, and undoes ENCBIT (formalises R121). -/
def Obligations.DecbitRecoversAndAuthenticates : Prop :=
  encode (.decbit false) = 0x40#8 ∧ encode (.decbit true) = 0x41#8 ∧
    ∀ (c : Bool) (s : State),
      ((s.phase = .ad ∨ s.phase = .text) ∧ s.dir = true →
        exec (.decbit c) s = .next
          { s with
            dp := perBitLines s.cfg (fun y => c ^^ y) s.dp
            dout := c ^^ ksb s.cfg s.dp.lfsr s.dp.nfsr, doutValid := true, phase := .text } ∧
        ∀ p : Bool, c = (p ^^ ksb s.cfg s.dp.lfsr s.dp.nfsr) →
          ∃ t, exec (.encbit p) { s with dir := false } = .next t ∧
            exec (.decbit c) s = .next { t with dir := true, dout := p }) ∧
      ElsewhereRefused (.decbit c) ((s.phase = .ad ∨ s.phase = .text) ∧ s.dir = true) s

/-- PAD authenticates the bit 1 and enters PADDED, so that ACC holds ACC xor AUTH (formalises R105). -/
def Obligations.PadAuthenticatesOneFinalOne : Prop :=
  encode .pad = 0x50#8 ∧
    ∀ s : State,
      ((s.phase = .ad ∨ s.phase = .text) →
        ∃ o n, exec .pad s = .next
            { s with
              dp := perBitLines s.cfg (fun _ => true) s.dp, phase := .padded, doutValid := false, dout := o
              freeCount := n } ∧
          (perBitLines s.cfg (fun _ => true) s.dp).acc = s.dp.acc ^^^ s.dp.auth) ∧
      ElsewhereRefused .pad (s.phase = .ad ∨ s.phase = .text) s

/-- TAG latches ACC into TAGO, sets tagv and ends the transaction (formalises R124). -/
def Obligations.TagLatchesTheAccumulator : Prop :=
  encode .tag = 0x60#8 ∧
    ∀ s : State,
      (s.phase = .padded ∧ s.dir = false →
        ∃ o n t, exec .tag s = .next t ∧
          t = { s with
            tago := s.dp.acc, tagv := true, phase := .done
            dp := if s.cfg.zeroize = true then ⟨0, 0, 0, 0⟩ else s.dp, doutValid := false, dout := o, freeCount := n } ∧
          ∀ k, k < 8 → t.tagOutBuf[k]? = some (s.dp.acc.extractLsb' (8 * k) 8)) ∧
      ElsewhereRefused .tag (s.phase = .padded ∧ s.dir = false) s

/-- VERIFY compares ACC with tag_in and reports the result without a fault (formalises R125). -/
def Obligations.VerifyComparesAllBits : Prop :=
  encode .verify = 0x70#8 ∧
    ∀ s : State,
      (s.phase = .padded ∧ s.dir = true →
        ∃ o n ok, exec .verify s = .next
            { s with
              ok := ok, okv := true, wipe := if ok = true then s.wipe else true, phase := .done
              dp := if s.cfg.zeroize = true then ⟨0, 0, 0, 0⟩ else s.dp, doutValid := false, dout := o
              freeCount := n } ∧
          (ok = true ↔ s.dp.acc = s.tagIn)) ∧
      ElsewhereRefused .verify (s.phase = .padded ∧ s.dir = true) s

/-- CLEAR returns the block to IDLE from every phase that takes commands, ERROR included (rests on R126, R149). -/
def Obligations.ClearReturnsToIdle : Prop :=
  encode .clear = 0x80#8 ∧
    ∀ s : State, s.phase ≠ .init →
      ∃ o n, exec .clear s = .next
        { s with
          phase := .idle, ctr := 0, dir := false, ok := false, okv := false, tagv := false, err := false
          errcode := .none, wipe := false, tago := 0
          dp := if s.cfg.zeroize = true then ⟨0, 0, 0, 0⟩ else s.dp, doutValid := false, dout := o, freeCount := n }

/-- In ERROR every word but CLEAR, legal or not, is consumed and does nothing (formalises R53). -/
def Obligations.ErrorConsumesEveryOtherWord : Prop :=
  ∀ (w : CmdWord) (s : State), s.phase = .error →
    (w ≠ 0x80#8 → ∃ o n, takeWord w s = .next (noEffect o n s)) ∧
    (w = 0x80#8 → takeWord w s = exec .clear s ∧ ∃ t, takeWord w s = .next t ∧ t.phase = .idle ∧ t.errcode = .none ∧ t.err = false)

/-- Every command in every phase and direction leaves the phase the admission table gives (rests on R52, R49, R144). -/
def Obligations.AdmissionFollowsTheTable : Prop :=
  ∀ (i : Instr) (s : State), s.phase ≠ .init → s.phase ≠ .error →
    ∃ t, exec i s = .next t ∧
      match tableR52 i s.phase s.dir with
      | some p => t.phase = p ∧ (i ≠ .clear → t.err = s.err ∧ t.errcode = s.errcode)
      | none => t.phase = .error ∧ t.errcode = .protocolViolation ∧ t.err = true ∧ t.wipe = true

/-- Both faults perform exactly the fault entry of rule R146 (rests on R146, R143, R144, R147). -/
def Obligations.FaultEntryIsTheSameForBothFaults : Prop :=
  ∀ (w : CmdWord) (s : State), s.phase ≠ .init → s.phase ≠ .error →
    (w ∉ legalWords → ∃ o n, takeWord w s = .next (faultState .illegalCommand o n s)) ∧
    (∀ i, decode w = some i → tableR52 i s.phase s.dir = none →
      ∃ o n, takeWord w s = .next (faultState .protocolViolation o n s))

/-- ERROR is left only by CLEAR or reset, and the code of the first fault stays (rests on R149, R53, R148). The model's choices: the host's moves, any of which may follow, are the model's (log entry 5). -/
def Obligations.ErrorIsLeftOnlyByClearOrReset : Prop :=
  ∀ s t : State, s.phase = .error → s.rst = false → ¬ (s.cmdValid = true ∧ s.cmd = 0x80#8) → step s = .next t →
    t.phase = .error ∧ t.err = s.err ∧ t.errcode = s.errcode ∧ t.wipe = s.wipe

/-- dout_valid is 1 exactly in the step of an ENCBIT or DECBIT that is admitted (rests on R21, R120, R121, R146). -/
def Obligations.DoutValidOnlyForTextCommands : Prop :=
  ∀ (w : CmdWord) (s : State), s.phase ≠ .init →
    ∃ t, takeWord w s = .next t ∧
      (t.doutValid = true ↔
        (s.phase = .ad ∨ s.phase = .text) ∧
          ((s.dir = false ∧ ∃ b, decode w = some (.encbit b)) ∨ (s.dir = true ∧ ∃ b, decode w = some (.decbit b))))

/-- No command of the engine changes a byte of a buffer, an input port, a parameter or the orchestrator (rests on R21, R30, R122, R130). -/
def Obligations.CommandsLeaveBuffersAndInputsAlone : Prop :=
  ∀ (i : Instr) (s t : State), exec i s = .next t →
    (∀ k, bufRead t.mem.ad k = bufRead s.mem.ad k ∧ bufRead t.mem.txtIn k = bufRead s.mem.txtIn k ∧
      bufRead t.mem.txtOut k = bufRead s.mem.txtOut k) ∧
    t.rst = s.rst ∧ t.cmdValid = s.cmdValid ∧ t.cmd = s.cmd ∧ t.key = s.key ∧ t.nonce = s.nonce ∧ t.tagIn = s.tagIn ∧
    t.cfg = s.cfg ∧ t.orch = s.orch ∧ t.host = s.host

/-- K, dir, TAGO and the datapath registers are written only by the commands the spec names (rests on R10, R11, R12, R13, R17, R18, R19, R22, R27, R91, R126, R146). -/
def Obligations.LatchesAreWrittenOnlyByTheirRules : Prop :=
  ∀ (i : Instr) (s t : State), s.phase ≠ .init → exec i s = .next t →
    (t.k ≠ s.k → ∃ d, i = .load d) ∧
    (t.dir ≠ s.dir → i = .clear ∨ ∃ d, i = .load d) ∧
    (t.tago ≠ s.tago → (i = .tag ∧ t.tago = s.dp.acc) ∨ t.tago = 0) ∧
    (t.tago ≠ s.tago → i = .tag ∨ i = .clear ∨ (∃ d, i = .load d) ∨ t.phase = .error) ∧
    (t.ok = true → s.ok = true ∨ i = .verify) ∧ (t.okv = true → s.okv = true ∨ i = .verify) ∧
    (t.tagv = true → s.tagv = true ∨ i = .tag) ∧
    (t.dp ≠ s.dp →
      (∃ d, i = .load d) ∧ t.phase = .init ∧ t.dp.acc = s.dp.acc ∧ t.dp.auth = s.dp.auth ∨
      (i = .pad ∨ ∃ b, i = .adbit b ∨ i = .encbit b ∨ i = .decbit b) ∧ (t.phase = .ad ∨ t.phase = .text ∨ t.phase = .padded) ∨
      (i = .tag ∨ i = .verify ∨ i = .clear ∨ t.phase = .error) ∧ s.cfg.zeroize = true ∧ t.dp = ⟨0, 0, 0, 0⟩) ∧
    (i = .clear ∨ t.phase ≠ s.phase ∧ (t.phase = .done ∨ t.phase = .error) → s.cfg.zeroize = true → t.dp = ⟨0, 0, 0, 0⟩)

/-- The datapath and the key reach a port only through dout, TAG and the result of VERIFY (rests on R25, R153, R12, R19). -/
def Obligations.SecretsReachNoOtherPort : Prop :=
  ∀ (i : Instr) (s : State) (d : Datapath) (k : Reg128),
    ∃ t u, exec i s = .next t ∧ exec i { s with dp := d, k := k } = .next u ∧
      (i ≠ .tag → t.tago = u.tago) ∧ (i ≠ .verify → t.status = u.status) ∧ t.doutValid = u.doutValid ∧
      ((∀ b, i ≠ .encbit b ∧ i ≠ .decbit b) → t.dout = u.dout)

/-- STATUS carries each field at its bits and reads 0 in the reserved bits (formalises R20). -/
def Obligations.StatusWordLayout : Prop :=
  (∀ s : State,
      s.status.extractLsb' 0 3 = s.phase.code ∧ s.status.getLsbD 3 = s.dir ∧
      s.status.getLsbD 4 = s.cmdReady ∧ (s.cmdReady = true ↔ s.phase ≠ .init) ∧
      s.status.getLsbD 5 = s.tagv ∧ s.status.getLsbD 6 = s.okv ∧ s.status.getLsbD 7 = s.ok ∧
      s.status.getLsbD 8 = s.err ∧ s.status.extractLsb' 9 4 = s.errcode.code ∧ s.status.getLsbD 13 = s.wipe ∧
      s.status.extractLsb' 14 2 = 0#2) ∧
    [Phase.idle, .init, .ad, .text, .padded, .done, .error].map Phase.code = [0, 1, 2, 3, 4, 5, 7] ∧
    [ErrCode.none, .illegalCommand, .protocolViolation, .contractViolation].map ErrCode.code = [0, 1, 2, 3]

/-- A sub-phase A step feeds the keystream bit back into both registers (formalises R93). -/
def Obligations.InitialisationStepA : Prop :=
  ∀ s : State, s.rst = false → s.phase = .init → s.driven → s.ctr.toNat ≤ 319 →
    ∃ t, step s = .next t ∧ t.phase = .init ∧ t.ctr.toNat = s.ctr.toNat + 1 ∧
      let q := clock s.cfg s.dp
      t.engine = initialised (update (q.s ^^ q.y) (q.b ^^ q.y) s.dp) t s ∧ (s.host = [] → t.mem = s.mem)

/-- A sub-phase B step also feeds key bits j + 64 and j (formalises R94). -/
def Obligations.InitialisationStepB : Prop :=
  ∀ s : State, s.rst = false → s.phase = .init → s.driven → 320 ≤ s.ctr.toNat → s.ctr.toNat ≤ 383 →
    ∃ t, step s = .next t ∧ t.phase = .init ∧ t.ctr.toNat = s.ctr.toNat + 1 ∧
      let q := clock s.cfg s.dp
      let j := s.ctr.toNat - 320
      t.engine = initialised (update (q.s ^^ q.y ^^ s.k.getLsbD (j + 64)) (q.b ^^ q.y ^^ s.k.getLsbD j) s.dp) t s ∧ (s.host = [] → t.mem = s.mem)

/-- A sub-phase C step writes the keystream bit to one bit of ACC (formalises R95). -/
def Obligations.InitialisationStepC : Prop :=
  ∀ s : State, s.rst = false → s.phase = .init → s.driven → 384 ≤ s.ctr.toNat → s.ctr.toNat ≤ 447 →
    ∃ t acc, step s = .next t ∧ t.phase = .init ∧ t.ctr.toNat = s.ctr.toNat + 1 ∧
      let q := clock s.cfg s.dp
      let i := s.ctr.toNat - 384
      (∀ b, b < 64 → acc.getLsbD b = if b = i then q.y else s.dp.acc.getLsbD b) ∧
      t.engine = initialised (update q.s q.b { s.dp with acc := acc }) t s ∧ (s.host = [] → t.mem = s.mem)

/-- A sub-phase D step writes the keystream bit to one bit of AUTH, and the last one leads to AD (rests on R96, R97). -/
def Obligations.InitialisationStepD : Prop :=
  (∀ s : State, s.rst = false → s.phase = .init → s.driven → 448 ≤ s.ctr.toNat →
      ∃ t auth, step s = .next t ∧
        (s.ctr.toNat = 511 → t.phase = .ad ∧ t.ctr = 0 ∧ t.cmdReady = true) ∧
        (s.ctr.toNat < 511 → t.phase = .init ∧ t.ctr.toNat = s.ctr.toNat + 1) ∧
        let q := clock s.cfg s.dp
        let i := s.ctr.toNat - 448
        (∀ b, b < 64 → auth.getLsbD b = if b = i then q.y else s.dp.auth.getLsbD b) ∧
        t.engine = initialised (update q.s q.b { s.dp with auth := auth }) t s ∧ (s.host = [] → t.mem = s.mem)) ∧
    ∀ (i : Instr) (s : State) (k : Reg128), ∃ t k', exec i s = .next t ∧ exec i { s with k := k } = .next { t with k := k' }

/-- From every state in INIT the initialiser reaches AD in exactly 512 - ctr steps, running its steps in order (rests on R92, R97, R99, R16). The model's choices: that a step of the model is one step of the initialiser, and a host without moves, are the model's (log entries 5 and 16). -/
def Obligations.InitialisationAlwaysEnds : Prop :=
  ∀ s : State, s.rst = false → s.phase = .init → s.driven → s.host = [] →
    (∃ t, Sys2Proof.core.run (512 - s.ctr.toNat) s = .next t ∧ t.phase = .ad ∧ t.ctr = 0 ∧
      t.dp = initDatapathSteps s.cfg s.k (512 - s.ctr.toNat) s.ctr.toNat s.dp) ∧
    ∀ m, m < 512 - s.ctr.toNat →
      ∃ u, Sys2Proof.core.run m s = .next u ∧ u.phase = .init ∧ u.ctr.toNat = s.ctr.toNat + m

/-- After initialisation every register is a function of key and nonce alone, and ACC and AUTH are keystream bits (rests on R29, R99, R134). -/
def Obligations.InitialisationDependsOnKeyAndNonceOnly : Prop :=
  ∀ (c : Config) (k : Reg128) (v : NonceWord) (d e : Datapath),
    initDatapath c k (loadDatapath k v d) = initDatapath c k (loadDatapath k v e) ∧
    ∀ i, i < 64 →
      (initDatapath c k d).acc.getLsbD i = (clock c (initDatapathSteps c k (384 + i) 0 d)).y ∧
      (initDatapath c k d).auth.getLsbD i = (clock c (initDatapathSteps c k (448 + i) 0 d)).y

/-- shift_in, shift_in64 and set_bit move exactly the bits their rules name (rests on R62, R64, R65). -/
def Obligations.ShiftsAndSetBitMoveExactlyTheirBits : Prop :=
  (∀ (w : Width) (r : Reg128) (v : BitVec w.bits) (i : Nat), i < 128 →
      (shiftIn w r v).getLsbD i = if i + w.bits < 128 then r.getLsbD (i + w.bits) else v.getLsbD (i - (128 - w.bits))) ∧
    (∀ (n : Nat) (b : BitVec n) (i j : Nat) (v : Bool), i < n → j < n →
      (setBit b i v).getLsbD j = if j = i then v else b.getLsbD j) ∧
    (∀ (a : Reg64) (x : Bool) (i : Nat), i < 64 → (shiftIn64 a x).getLsbD i = if i = 63 then x else a.getLsbD (i + 1))

/-- The byte forms of extract read exactly the bits of the window, and refuse exactly the windows that do not fit (rests on R60, R61, R32, R33). -/
def Obligations.ByteWindowsAreBitWindows : Prop :=
  ∀ (bs : List Byte) (s : Nat),
    ((byteWindow1 bs s).map BitVec.ofBool = extract (portOfBytes (8 * bs.length) bs) s .w1) ∧
    byteWindow8 bs s = extract (portOfBytes (8 * bs.length) bs) s .w8 ∧
    byteWindow32 bs s = extract (portOfBytes (8 * bs.length) bs) s .w32 ∧
    ∀ w : Width, ((extract (portOfBytes (8 * bs.length) bs) s w).isSome = true ↔ s + w.bits ≤ 8 * bs.length) ∧
      ∀ v, extract (portOfBytes (8 * bs.length) bs) s w = some v →
        ∀ j, j < w.bits → bufBit bs (s + j) = some (v.getLsbD j)

/-- One shift or window of width w equals w one-bit shifts or windows (formalises R63). -/
def Obligations.WidthsAreEquivalent : Prop :=
  ∀ w : Width,
    (∀ (r : Reg128) (v : BitVec w.bits), shiftIn w r v = (bitsOf v).foldl shiftIn1 r) ∧
    (∀ (n : Nat) (b : BitVec n) (s : Nat) (v : BitVec w.bits), extract b s w = some v →
      ∀ j, j < w.bits → extract b (s + j) .w1 = some (BitVec.ofBool (v.getLsbD j)))

/-- h, L, F and the keystream bit are the formulas of the spec with the default parameters (rests on R70, R71, R72, R74, R75). The model's choices: the default parameters are PRESUMED, the spec's general knowledge (log entry 1). -/
def Obligations.FeedbackFormulasWithTheDefaults : Prop :=
  ∀ l n : Reg128,
    let S := l.getLsbD
    let N := n.getLsbD
    feedbackH defaultConfig l n = ((N 12 && S 8) ^^ (S 13 && S 20) ^^ (N 95 && S 42) ^^ (S 60 && S 79) ^^ (N 12 && N 95 && S 94)) ∧
    feedbackL l = (S 0 ^^ S 7 ^^ S 38 ^^ S 70 ^^ S 81 ^^ S 96) ∧
    feedbackF defaultConfig l n =
      (S 0 ^^ N 0 ^^ N 26 ^^ N 56 ^^ N 91 ^^ N 96 ^^ (N 3 && N 67) ^^ (N 11 && N 13) ^^ (N 17 && N 18) ^^ (N 27 && N 59)
        ^^ (N 40 && N 48) ^^ (N 61 && N 65) ^^ (N 68 && N 84) ^^ (N 22 && N 24 && N 25) ^^ (N 70 && N 78 && N 82)
        ^^ (N 88 && N 92 && N 93 && N 95)) ∧
    ∀ c : Config, ksb c l n = (feedbackH c l n ^^ S 93 ^^ N 2 ^^ N 15 ^^ N 36 ^^ N 45 ^^ N 64 ^^ N 73 ^^ N 89)

/-- update drops bit 0 of both registers, moves every bit down and appends the given bits at the top (formalises R81). -/
def Obligations.UpdateMovesBothRegisters : Prop :=
  ∀ (lBit fBit : Bool) (d : Datapath),
    (∀ i, i < 128 → (update lBit fBit d).lfsr.getLsbD i = if i = 127 then lBit else d.lfsr.getLsbD (i + 1)) ∧
    (∀ i, i < 128 → (update lBit fBit d).nfsr.getLsbD i = if i = 127 then fBit else d.nfsr.getLsbD (i + 1)) ∧
    (update lBit fBit d).acc = d.acc ∧ (update lBit fBit d).auth = d.auth ∧
    update false false Datapath.zero = Datapath.zero

/-- Lane j of each batched feedback function is the 1-bit function after j generation clocks (rests on R77, R73, R76). -/
def Obligations.BatchedLanesAreLaterClocks : Prop :=
  ∀ (w : Width) (c : Config) (d : Datapath) (j : Nat), c.tapsInRange = true → j < w.bits →
    let e := genClocks c j d
    (ksbW w c d.lfsr d.nfsr).getLsbD j = ksb c e.lfsr e.nfsr ∧ (feedbackLW w d.lfsr).getLsbD j = feedbackL e.lfsr ∧
    (feedbackFW w c d.lfsr d.nfsr).getLsbD j = feedbackF c e.lfsr e.nfsr ∧
    (feedbackHW w c d.lfsr d.nfsr).getLsbD j = feedbackH c e.lfsr e.nfsr

/-- One batched clock of stride W equals W serial generation clocks (rests on R77, R85, R62). -/
def Obligations.BatchedClockEqualsSerialClocks : Prop :=
  ∀ (w : Width) (c : Config) (d : Datapath), c.tapsInRange = true → genClockW w c d = genClocks c w.bits d

/-- One batched initialisation step of stride W equals W serial steps, in every sub-phase (rests on R98, R92). -/
def Obligations.BatchedInitialisationEqualsSerial : Prop :=
  ∀ (w : Width) (c : Config) (k : Reg128) (t : Nat) (d : Datapath), c.tapsInRange = true → w.bits ∣ t → t + w.bits ≤ 512 →
    initBatch w c k t d = initDatapathSteps c k w.bits t d

/-- The batched MAC law equals the MAC law applied bit by bit (rests on R107, R101). -/
def Obligations.BatchedMacEqualsSerial : Prop :=
  ∀ (w : Width) (m a : BitVec w.bits) (d : Datapath),
    authenticateW w m a d = ((bitsOf m).zip (bitsOf a)).foldl (fun e p => authenticate p.1 p.2 e) d

/-- A stride-W implementation gives the text bits and registers of W serial text commands (rests on R85, R55, R103, R107). -/
def Obligations.StrideTextEqualsSerialText : Prop :=
  ∀ (w : Width) (c : Config) (decrypt : Bool) (b : BitVec w.bits) (d : Datapath), c.tapsInRange = true →
    let r := if decrypt = true then decBits c (bitsOf b) d else encBits c (bitsOf b) d
    bitsOf (textStride w c decrypt b d).1 = r.1 ∧ (textStride w c decrypt b d).2 = r.2

/-- The MAC law xors the old AUTH into ACC on a 1 bit and shifts the odd bit into AUTH (formalises R101). -/
def Obligations.MacLaw : Prop :=
  ∀ (m a : Bool) (d : Datapath),
    (authenticate m a d).acc = (if m = true then d.acc ^^^ d.auth else d.acc) ∧
    (∀ i, i < 64 → (authenticate m a d).auth.getLsbD i = if i = 63 then a else d.auth.getLsbD (i + 1)) ∧
    (authenticate m a d).lfsr = d.lfsr ∧ (authenticate m a d).nfsr = d.nfsr

/-- After authenticating any bits, ACC is the first ACC xor the AUTH values met by the 1 bits, and those are odd keystream bits (rests on R106, R99, R103). -/
def Obligations.TagIsASumOfAuthValues : Prop :=
  ∀ (c : Config) (ms : List Bool) (d : Datapath),
    let R := fun k => (authBits c (ms.take k) d).auth
    (authBits c ms d).acc =
      (List.range ms.length).foldl (fun a k => if ms.getD k false = true then a ^^^ R k else a) d.acc ∧
    ∀ k i, k ≤ ms.length → i < 64 →
      (R k).getLsbD i =
        if k + i < 64 then d.auth.getLsbD (k + i) else (clock c (genClocks c (2 * (k + i - 64) + 1) d)).y

/-- The length prefix is one byte below 128, else 0x80 | k and the k bytes of n, most significant first, k minimal (formalises R100). -/
def Obligations.LengthPrefixForm : Prop :=
  (∀ n, n < 128 → encodeDer n = some [BitVec.ofNat 8 n]) ∧
    (∀ n, 128 ≤ n → n < 2 ^ 64 →
      ∃ k bs, 1 ≤ k ∧ k ≤ 8 ∧ 256 ^ (k - 1) ≤ n ∧ n < 256 ^ k ∧
        encodeDer n = some ((0x80#8 ||| BitVec.ofNat 8 k) :: bs) ∧ bs.length = k ∧
        (∀ j, j < k → bs[j]? = some (BitVec.ofNat 8 (n / 256 ^ (k - 1 - j)))) ∧ bs[0]? ≠ some 0#8) ∧
    (∀ n, 2 ^ 64 ≤ n → encodeDer n = none)

/-- Round trip: decrypting what was encrypted, with its tag, gives the plaintext and authenticates (rests on R136, R132, R133, R121). -/
def Obligations.DecryptUndoesEncrypt : Prop :=
  ∀ (c : Config) (key : Reg128) (nonce : NonceWord) (ad text : List Byte), ad.length < 2 ^ 64 →
    ∃ ct tag, encryptTransaction c key nonce ad text = some (ct, tag) ∧ ct.length = text.length ∧
      decryptTransaction c key nonce tag ad ct = some (text, true)

/-- DECRYPT reports true exactly for the computed tag, and otherwise returns only zero bytes of the same length (rests on R131, R133, R141, R136). -/
def Obligations.FailedDecryptReleasesOnlyZeros : Prop :=
  ∀ (c : Config) (key : Reg128) (nonce : NonceWord) (ad text : List Byte), ad.length < 2 ^ 64 →
    ∃ pt tag, runTransaction c true key nonce ad text Datapath.zero = some (pt, tag) ∧ pt.length = text.length ∧
      encryptTransaction c key nonce ad pt = some (text, tag) ∧
      ∀ g : Reg64, decryptTransaction c key nonce g ad text =
        if g = tag then some (pt, true) else some (List.replicate text.length 0#8, false)

/-- A call of ENCRYPT runs to its end on the machine and leaves the ciphertext in TXTOUT and the tag in TAGO (rests on R130, R132, R34, R122). The model's choices: the count of steps, with one to take the call, the port that nothing else drives (log entry 5, DESIGN CHOICE), buffers as byte lists handed over with the call (log entry 6, DESIGN CHOICE) and one step to a command (log entry 16) are the model's. -/
def Obligations.EncryptCallGivesCiphertextAndTag : Prop :=
  ∀ (s : State) (key nonce ad text pre : List Byte), s.rst = false → s.portFree = true → (s.phase = .idle ∨ s.phase = .done) →
    s.host = [.encrypt key nonce ad text] → key.length = 16 → nonce.length = 12 → encodeDer ad.length = some pre →
    ∃ t, Sys2Proof.core.run (516 + 8 * (pre.length + ad.length + text.length)) s = .next t ∧
      encryptTransaction s.cfg (portOfBytes 128 key) (portOfBytes 96 nonce) ad text = some (t.mem.txtOut, t.tago) ∧
      t.phase = .done ∧ t.dir = false ∧ t.tagv = true ∧ t.okv = false ∧ t.wipe = false ∧ t.portFree = true

/-- A call of DECRYPT runs to its end on the machine and leaves the plaintext, or zeros, in TXTOUT and the result in ok (rests on R130, R131, R133, R34, R122). The model's choices: the count of steps, with one to take the call, the port that nothing else drives (log entry 5, DESIGN CHOICE), the buffers (log entry 6, DESIGN CHOICE), the zeroing in the very step of VERIFY (log entry 10, DEDUCED) and one step to a command (log entry 16) are the model's. -/
def Obligations.DecryptCallGivesPlaintextOrZeros : Prop :=
  ∀ (s : State) (key nonce tag ad text pre : List Byte), s.rst = false → s.portFree = true →
    (s.phase = .idle ∨ s.phase = .done) → s.host = [.decrypt key nonce tag ad text] → key.length = 16 →
    nonce.length = 12 → tag.length = 8 → encodeDer ad.length = some pre →
    ∃ t, Sys2Proof.core.run (516 + 8 * (pre.length + ad.length + text.length)) s = .next t ∧
      decryptTransaction s.cfg (portOfBytes 128 key) (portOfBytes 96 nonce) (portOfBytes 64 tag) ad text =
        some (t.mem.txtOut, t.ok) ∧
      t.phase = .done ∧ t.dir = true ∧ t.okv = true ∧ t.tagv = false ∧ t.tago = 0 ∧ (t.wipe = true ↔ t.ok = false) ∧
      t.portFree = true

/-- A text command's output bit takes its operand's bit address in the byte being assembled, which the eighth bit writes whole (rests on R122, R34, R37, R24). The model's choices: that a whole byte is stored in the very step of its eighth command is log entry 10 (DEDUCED), and the loop position is log entry 9 (DESIGN CHOICE). -/
def Obligations.OutputBitLandsAtItsOperandsAddress : Prop :=
  ∀ s : State, Inv s → s.takesCommand = true → s.orch.stage = .text → s.host = [] →
    ∃ t b, step s = .next t ∧
      let a := msgAddr s.cfg.msgBitOrder s.orch.pos
      let bit := fun i => if i = a % 8 then b ^^ ksb s.cfg s.dp.lfsr s.dp.nfsr else s.orch.outByte.getLsbD i
      bufBit s.mem.txtIn a = some b ∧ t.mem.ad = s.mem.ad ∧ t.mem.txtIn = s.mem.txtIn ∧
      (s.orch.pos % 8 < 7 → t.mem.txtOut = s.mem.txtOut ∧ ∀ i, i < 8 → t.orch.outByte.getLsbD i = bit i) ∧
      (s.orch.pos % 8 = 7 → (∀ i, i < 8 → bufBit t.mem.txtOut (8 * (a / 8) + i) = some (bit i)) ∧
        ∀ i, i / 8 ≠ a / 8 → bufBit t.mem.txtOut i = bufBit s.mem.txtOut i)

/-- While M is known TXTOUT is zeroed by a command that leaves wipe 1 or clears an unreleased decrypt; outside the text stage it is otherwise left alone (rests on R126, R131, R18, R122, R161). The model's choices: the zeroing in the step that sets wipe, also for a fault in an encrypt transaction or after one has ended, and whoever issued the commands, is log entry 10 (DEDUCED); knowsM, its lifetime from a call to a reset, and that no command changes it are log entry 18 (DEDUCED): rule R161 itself speaks of reset alone. -/
def Obligations.ReleaseRuleForEveryCommand : Prop :=
  ∀ s t : State, s.takesCommand = true → s.host = [] → step s = .next t →
    let cleared := s.cmd = 0x80#8 ∧ s.dir = true ∧ s.phase ≠ .idle ∧ ¬ (s.phase = .done ∧ s.ok = true)
    (s.orch.knowsM = true → t.wipe = true ∨ cleared → t.mem.txtOut = List.replicate s.mem.txtOut.length 0#8) ∧
    (s.orch.knowsM = false ∨ t.wipe = false ∧ ¬ cleared → s.orch.stage ≠ .text → t.mem.txtOut = s.mem.txtOut) ∧
    t.mem.ad = s.mem.ad ∧ t.mem.txtIn = s.mem.txtIn ∧ t.orch.knowsM = s.orch.knowsM

/-- A call with a key, nonce, tag or length that is not allowed issues no command, writes nothing and reports code 3 (rests on R135, R142, R140). The model's choices: the wrapper, its report and its refusal of 2^64 bytes and more are the model's (log entry 12, DESIGN CHOICE), as is the step that takes the call (log entry 5). -/
def Obligations.WrongLengthsAreRefusedBeforeAnyCommand : Prop :=
  ∀ (s : State) (key nonce tag ad text : List Byte) (rest : List HostMove), s.rst = false → s.phase ≠ .init → s.portFree = true →
    (s.host = .encrypt key nonce ad text :: rest ∧ ¬ (key.length = 16 ∧ nonce.length = 12 ∧ ad.length < 2 ^ 64) ∨
      s.host = .decrypt key nonce tag ad text :: rest ∧
        ¬ (key.length = 16 ∧ nonce.length = 12 ∧ tag.length = 8 ∧ ad.length < 2 ^ 64)) →
    ∃ t, step s = .next t ∧ t.cmdValid = false ∧ t.mem = s.mem ∧ t.orch.report = .contractViolation ∧
      t.orch.report.code = 3 ∧ t.orch.stage = .idle ∧ t.host = rest ∧
      t.engine = { s.engine with doutValid := false, dout := t.dout }

/-- Once LOAD has been taken, no command of the orchestrator's raises a fault (rests on R132, R133, R134, R52). The model's choices: the orchestrator's ownership of the port is the model's (log entry 5, DESIGN CHOICE). -/
def Obligations.OrchestratorNeverFaults : Prop :=
  ∀ s : State, Inv s → s.rst = false → s.orch.stage ≠ .idle → s.orch.stage ≠ .load →
    ∃ t, step s = .next t ∧ t.phase ≠ .error ∧ t.errcode = .none

/-- A transaction issues 1 + 8 (prefix + N + M) + 2 commands, the AD stream first, PAD and the end last (rests on R132, R55, R102). -/
def Obligations.TransactionCommandCount : Prop :=
  ∀ (o : MsgBitOrder) (decrypt : Bool) (ad text pre : List Byte), encodeDer ad.length = some pre →
    ∃ cmds as ts, transactionCommands o decrypt ad text = some cmds ∧
      cmds = [.load decrypt] ++ as ++ ts ++ [.pad, if decrypt = true then .verify else .tag] ∧
      as = (stringBits o (pre ++ ad)).map .adbit ∧ as.length = 8 * (pre.length + ad.length) ∧
      ts = (stringBits o text).map (if decrypt = true then .decbit else .encbit) ∧ ts.length = 8 * text.length ∧
      cmds.length = 1 + 8 * (pre.length + ad.length + text.length) + 2

/-- The state after reset meets the machine's invariant (rests on R28, R162). The model's choices: empty buffers and zero registers at reset are the model's (log entries 2 and 6, DESIGN CHOICE). -/
def Obligations.ResetMeetsTheInvariant : Prop :=
  Inv State.reset

/-- From every state that meets the invariant the machine steps to a state that meets it, and never stops (rests on R15, R16, R18, R22, R27, R31, R131, R134, R140, R161, R166). The model's choices: that TXTOUT is zero already in the step that sets wipe (log entry 10, DEDUCED), that the host holds the key port in INIT (log entry 8, DESIGN CHOICE), the host's moves (log entry 5), the loop position (log entry 9), the length check (log entry 12) and the lifetime of knowsM (log entry 18, DEDUCED) are the model's. -/
def Obligations.EveryStepKeepsTheInvariantAndNeverStops : Prop :=
  ∀ s : State, Inv s → ∃ t, step s = .next t ∧ Inv t ∧ t.cfg = s.cfg

/-- ZEROIZE, and datapath contents left from before a LOAD, never reach a port, a flag, a buffer or the orchestrator (rests on R27, R28, R29). -/
def Obligations.ZeroizeAndResetContentsAreNotObservable : Prop :=
  ∀ s t : State, sameAtPorts s t → sameOutcome (step s) (step t)

/-- While the orchestrator does not know M, as after a reset, no step touches a buffer until the next call (rests on R161, R131). The model's choices: knowsM is the model's form of the rule (log entry 18), and the host's moves are the model's (log entry 5). -/
def Obligations.AfterResetNothingTouchesTheBuffers : Prop :=
  ∀ s : State, Inv s → s.orch.knowsM = false →
    (∀ key nonce ad text, s.host.head? ≠ some (.encrypt key nonce ad text)) →
    (∀ key nonce tag ad text, s.host.head? ≠ some (.decrypt key nonce tag ad text)) →
    ∃ t, step s = .next t ∧ t.mem = s.mem ∧ t.orch.knowsM = false
end

