-- ==== Sys2Proof/Laws/State.lean ====
section
/-! SUPPORT. One lemma per field per update of the state, each true by definition, so that no later proof unfolds a record update. -/

namespace Sys2Proof.Machine

@[simp] theorem State.quiet_dp (s : State) : (s.quiet).dp = s.dp := rfl
@[simp] theorem State.quiet_phase (s : State) : (s.quiet).phase = s.phase := rfl
@[simp] theorem State.quiet_ctr (s : State) : (s.quiet).ctr = s.ctr := rfl
@[simp] theorem State.quiet_dir (s : State) : (s.quiet).dir = s.dir := rfl
@[simp] theorem State.quiet_okv (s : State) : (s.quiet).okv = s.okv := rfl
@[simp] theorem State.quiet_ok (s : State) : (s.quiet).ok = s.ok := rfl
@[simp] theorem State.quiet_tagv (s : State) : (s.quiet).tagv = s.tagv := rfl
@[simp] theorem State.quiet_err (s : State) : (s.quiet).err = s.err := rfl
@[simp] theorem State.quiet_errcode (s : State) : (s.quiet).errcode = s.errcode := rfl
@[simp] theorem State.quiet_wipe (s : State) : (s.quiet).wipe = s.wipe := rfl
@[simp] theorem State.quiet_tago (s : State) : (s.quiet).tago = s.tago := rfl
@[simp] theorem State.quiet_k (s : State) : (s.quiet).k = s.k := rfl
@[simp] theorem State.quiet_dout (s : State) : (s.quiet).dout = Config.undrivenDout s.freeCount := rfl
@[simp] theorem State.quiet_doutValid (s : State) : (s.quiet).doutValid = false := rfl
@[simp] theorem State.quiet_rst (s : State) : (s.quiet).rst = s.rst := rfl
@[simp] theorem State.quiet_cmdValid (s : State) : (s.quiet).cmdValid = s.cmdValid := rfl
@[simp] theorem State.quiet_cmd (s : State) : (s.quiet).cmd = s.cmd := rfl
@[simp] theorem State.quiet_key (s : State) : (s.quiet).key = s.key := rfl
@[simp] theorem State.quiet_nonce (s : State) : (s.quiet).nonce = s.nonce := rfl
@[simp] theorem State.quiet_tagIn (s : State) : (s.quiet).tagIn = s.tagIn := rfl
@[simp] theorem State.quiet_mem (s : State) : (s.quiet).mem = s.mem := rfl
@[simp] theorem State.quiet_orch (s : State) : (s.quiet).orch = s.orch := rfl
@[simp] theorem State.quiet_cfg (s : State) : (s.quiet).cfg = s.cfg := rfl
@[simp] theorem State.quiet_host (s : State) : (s.quiet).host = s.host := rfl
@[simp] theorem State.quiet_freeCount (s : State) : (s.quiet).freeCount = s.freeCount + 1 := rfl

@[simp] theorem State.clearResult_dp (s : State) : (s.clearResult).dp = s.dp := rfl
@[simp] theorem State.clearResult_phase (s : State) : (s.clearResult).phase = s.phase := rfl
@[simp] theorem State.clearResult_ctr (s : State) : (s.clearResult).ctr = s.ctr := rfl
@[simp] theorem State.clearResult_dir (s : State) : (s.clearResult).dir = s.dir := rfl
@[simp] theorem State.clearResult_okv (s : State) : (s.clearResult).okv = false := rfl
@[simp] theorem State.clearResult_ok (s : State) : (s.clearResult).ok = false := rfl
@[simp] theorem State.clearResult_tagv (s : State) : (s.clearResult).tagv = false := rfl
@[simp] theorem State.clearResult_err (s : State) : (s.clearResult).err = s.err := rfl
@[simp] theorem State.clearResult_errcode (s : State) : (s.clearResult).errcode = s.errcode := rfl
@[simp] theorem State.clearResult_wipe (s : State) : (s.clearResult).wipe = s.wipe := rfl
@[simp] theorem State.clearResult_tago (s : State) : (s.clearResult).tago = 0 := rfl
@[simp] theorem State.clearResult_k (s : State) : (s.clearResult).k = s.k := rfl
@[simp] theorem State.clearResult_dout (s : State) : (s.clearResult).dout = s.dout := rfl
@[simp] theorem State.clearResult_doutValid (s : State) : (s.clearResult).doutValid = s.doutValid := rfl
@[simp] theorem State.clearResult_rst (s : State) : (s.clearResult).rst = s.rst := rfl
@[simp] theorem State.clearResult_cmdValid (s : State) : (s.clearResult).cmdValid = s.cmdValid := rfl
@[simp] theorem State.clearResult_cmd (s : State) : (s.clearResult).cmd = s.cmd := rfl
@[simp] theorem State.clearResult_key (s : State) : (s.clearResult).key = s.key := rfl
@[simp] theorem State.clearResult_nonce (s : State) : (s.clearResult).nonce = s.nonce := rfl
@[simp] theorem State.clearResult_tagIn (s : State) : (s.clearResult).tagIn = s.tagIn := rfl
@[simp] theorem State.clearResult_mem (s : State) : (s.clearResult).mem = s.mem := rfl
@[simp] theorem State.clearResult_orch (s : State) : (s.clearResult).orch = s.orch := rfl
@[simp] theorem State.clearResult_cfg (s : State) : (s.clearResult).cfg = s.cfg := rfl
@[simp] theorem State.clearResult_host (s : State) : (s.clearResult).host = s.host := rfl
@[simp] theorem State.clearResult_freeCount (s : State) : (s.clearResult).freeCount = s.freeCount := rfl

@[simp] theorem takeFault_dp (code : ErrCode) (s : State) : (takeFault code s).dp = discardRegs s.cfg s.dp := rfl
@[simp] theorem takeFault_phase (code : ErrCode) (s : State) : (takeFault code s).phase = .error := rfl
@[simp] theorem takeFault_ctr (code : ErrCode) (s : State) : (takeFault code s).ctr = 0 := rfl
@[simp] theorem takeFault_dir (code : ErrCode) (s : State) : (takeFault code s).dir = s.dir := rfl
@[simp] theorem takeFault_okv (code : ErrCode) (s : State) : (takeFault code s).okv = false := rfl
@[simp] theorem takeFault_ok (code : ErrCode) (s : State) : (takeFault code s).ok = false := rfl
@[simp] theorem takeFault_tagv (code : ErrCode) (s : State) : (takeFault code s).tagv = false := rfl
@[simp] theorem takeFault_err (code : ErrCode) (s : State) : (takeFault code s).err = true := rfl
@[simp] theorem takeFault_errcode (code : ErrCode) (s : State) : (takeFault code s).errcode = code := rfl
@[simp] theorem takeFault_wipe (code : ErrCode) (s : State) : (takeFault code s).wipe = true := rfl
@[simp] theorem takeFault_tago (code : ErrCode) (s : State) : (takeFault code s).tago = 0 := rfl
@[simp] theorem takeFault_k (code : ErrCode) (s : State) : (takeFault code s).k = s.k := rfl
@[simp] theorem takeFault_dout (code : ErrCode) (s : State) : (takeFault code s).dout = Config.undrivenDout s.freeCount := rfl
@[simp] theorem takeFault_doutValid (code : ErrCode) (s : State) : (takeFault code s).doutValid = false := rfl
@[simp] theorem takeFault_rst (code : ErrCode) (s : State) : (takeFault code s).rst = s.rst := rfl
@[simp] theorem takeFault_cmdValid (code : ErrCode) (s : State) : (takeFault code s).cmdValid = s.cmdValid := rfl
@[simp] theorem takeFault_cmd (code : ErrCode) (s : State) : (takeFault code s).cmd = s.cmd := rfl
@[simp] theorem takeFault_key (code : ErrCode) (s : State) : (takeFault code s).key = s.key := rfl
@[simp] theorem takeFault_nonce (code : ErrCode) (s : State) : (takeFault code s).nonce = s.nonce := rfl
@[simp] theorem takeFault_tagIn (code : ErrCode) (s : State) : (takeFault code s).tagIn = s.tagIn := rfl
@[simp] theorem takeFault_mem (code : ErrCode) (s : State) : (takeFault code s).mem = s.mem := rfl
@[simp] theorem takeFault_orch (code : ErrCode) (s : State) : (takeFault code s).orch = s.orch := rfl
@[simp] theorem takeFault_cfg (code : ErrCode) (s : State) : (takeFault code s).cfg = s.cfg := rfl
@[simp] theorem takeFault_host (code : ErrCode) (s : State) : (takeFault code s).host = s.host := rfl
@[simp] theorem takeFault_freeCount (code : ErrCode) (s : State) : (takeFault code s).freeCount = s.freeCount + 1 := rfl

@[simp] theorem returnToIdle_dp (s : State) : (returnToIdle s).dp = discardRegs s.cfg s.dp := rfl
@[simp] theorem returnToIdle_phase (s : State) : (returnToIdle s).phase = .idle := rfl
@[simp] theorem returnToIdle_ctr (s : State) : (returnToIdle s).ctr = 0 := rfl
@[simp] theorem returnToIdle_dir (s : State) : (returnToIdle s).dir = false := rfl
@[simp] theorem returnToIdle_okv (s : State) : (returnToIdle s).okv = false := rfl
@[simp] theorem returnToIdle_ok (s : State) : (returnToIdle s).ok = false := rfl
@[simp] theorem returnToIdle_tagv (s : State) : (returnToIdle s).tagv = false := rfl
@[simp] theorem returnToIdle_err (s : State) : (returnToIdle s).err = false := rfl
@[simp] theorem returnToIdle_errcode (s : State) : (returnToIdle s).errcode = .none := rfl
@[simp] theorem returnToIdle_wipe (s : State) : (returnToIdle s).wipe = false := rfl
@[simp] theorem returnToIdle_tago (s : State) : (returnToIdle s).tago = 0 := rfl
@[simp] theorem returnToIdle_k (s : State) : (returnToIdle s).k = s.k := rfl
@[simp] theorem returnToIdle_dout (s : State) : (returnToIdle s).dout = Config.undrivenDout s.freeCount := rfl
@[simp] theorem returnToIdle_doutValid (s : State) : (returnToIdle s).doutValid = false := rfl
@[simp] theorem returnToIdle_rst (s : State) : (returnToIdle s).rst = s.rst := rfl
@[simp] theorem returnToIdle_cmdValid (s : State) : (returnToIdle s).cmdValid = s.cmdValid := rfl
@[simp] theorem returnToIdle_cmd (s : State) : (returnToIdle s).cmd = s.cmd := rfl
@[simp] theorem returnToIdle_key (s : State) : (returnToIdle s).key = s.key := rfl
@[simp] theorem returnToIdle_nonce (s : State) : (returnToIdle s).nonce = s.nonce := rfl
@[simp] theorem returnToIdle_tagIn (s : State) : (returnToIdle s).tagIn = s.tagIn := rfl
@[simp] theorem returnToIdle_mem (s : State) : (returnToIdle s).mem = s.mem := rfl
@[simp] theorem returnToIdle_orch (s : State) : (returnToIdle s).orch = s.orch := rfl
@[simp] theorem returnToIdle_cfg (s : State) : (returnToIdle s).cfg = s.cfg := rfl
@[simp] theorem returnToIdle_host (s : State) : (returnToIdle s).host = s.host := rfl
@[simp] theorem returnToIdle_freeCount (s : State) : (returnToIdle s).freeCount = s.freeCount + 1 := rfl

@[simp] theorem loadEffect_dp (d : Bool) (s : State) : (loadEffect d s).dp = loadDatapath s.key s.nonce s.dp := rfl
@[simp] theorem loadEffect_phase (d : Bool) (s : State) : (loadEffect d s).phase = .init := rfl
@[simp] theorem loadEffect_ctr (d : Bool) (s : State) : (loadEffect d s).ctr = 0 := rfl
@[simp] theorem loadEffect_dir (d : Bool) (s : State) : (loadEffect d s).dir = d := rfl
@[simp] theorem loadEffect_okv (d : Bool) (s : State) : (loadEffect d s).okv = false := rfl
@[simp] theorem loadEffect_ok (d : Bool) (s : State) : (loadEffect d s).ok = false := rfl
@[simp] theorem loadEffect_tagv (d : Bool) (s : State) : (loadEffect d s).tagv = false := rfl
@[simp] theorem loadEffect_err (d : Bool) (s : State) : (loadEffect d s).err = s.err := rfl
@[simp] theorem loadEffect_errcode (d : Bool) (s : State) : (loadEffect d s).errcode = s.errcode := rfl
@[simp] theorem loadEffect_wipe (d : Bool) (s : State) : (loadEffect d s).wipe = false := rfl
@[simp] theorem loadEffect_tago (d : Bool) (s : State) : (loadEffect d s).tago = 0 := rfl
@[simp] theorem loadEffect_k (d : Bool) (s : State) : (loadEffect d s).k = s.key := rfl
@[simp] theorem loadEffect_dout (d : Bool) (s : State) : (loadEffect d s).dout = Config.undrivenDout s.freeCount := rfl
@[simp] theorem loadEffect_doutValid (d : Bool) (s : State) : (loadEffect d s).doutValid = false := rfl
@[simp] theorem loadEffect_rst (d : Bool) (s : State) : (loadEffect d s).rst = s.rst := rfl
@[simp] theorem loadEffect_cmdValid (d : Bool) (s : State) : (loadEffect d s).cmdValid = s.cmdValid := rfl
@[simp] theorem loadEffect_cmd (d : Bool) (s : State) : (loadEffect d s).cmd = s.cmd := rfl
@[simp] theorem loadEffect_key (d : Bool) (s : State) : (loadEffect d s).key = s.key := rfl
@[simp] theorem loadEffect_nonce (d : Bool) (s : State) : (loadEffect d s).nonce = s.nonce := rfl
@[simp] theorem loadEffect_tagIn (d : Bool) (s : State) : (loadEffect d s).tagIn = s.tagIn := rfl
@[simp] theorem loadEffect_mem (d : Bool) (s : State) : (loadEffect d s).mem = s.mem := rfl
@[simp] theorem loadEffect_orch (d : Bool) (s : State) : (loadEffect d s).orch = s.orch := rfl
@[simp] theorem loadEffect_cfg (d : Bool) (s : State) : (loadEffect d s).cfg = s.cfg := rfl
@[simp] theorem loadEffect_host (d : Bool) (s : State) : (loadEffect d s).host = s.host := rfl
@[simp] theorem loadEffect_freeCount (d : Bool) (s : State) : (loadEffect d s).freeCount = s.freeCount + 1 := rfl

@[simp] theorem adbitEffect_dp (m : Bool) (s : State) : (adbitEffect m s).dp = perBit s.cfg m s.dp := rfl
@[simp] theorem adbitEffect_phase (m : Bool) (s : State) : (adbitEffect m s).phase = s.phase := rfl
@[simp] theorem adbitEffect_ctr (m : Bool) (s : State) : (adbitEffect m s).ctr = s.ctr := rfl
@[simp] theorem adbitEffect_dir (m : Bool) (s : State) : (adbitEffect m s).dir = s.dir := rfl
@[simp] theorem adbitEffect_okv (m : Bool) (s : State) : (adbitEffect m s).okv = s.okv := rfl
@[simp] theorem adbitEffect_ok (m : Bool) (s : State) : (adbitEffect m s).ok = s.ok := rfl
@[simp] theorem adbitEffect_tagv (m : Bool) (s : State) : (adbitEffect m s).tagv = s.tagv := rfl
@[simp] theorem adbitEffect_err (m : Bool) (s : State) : (adbitEffect m s).err = s.err := rfl
@[simp] theorem adbitEffect_errcode (m : Bool) (s : State) : (adbitEffect m s).errcode = s.errcode := rfl
@[simp] theorem adbitEffect_wipe (m : Bool) (s : State) : (adbitEffect m s).wipe = s.wipe := rfl
@[simp] theorem adbitEffect_tago (m : Bool) (s : State) : (adbitEffect m s).tago = s.tago := rfl
@[simp] theorem adbitEffect_k (m : Bool) (s : State) : (adbitEffect m s).k = s.k := rfl
@[simp] theorem adbitEffect_dout (m : Bool) (s : State) : (adbitEffect m s).dout = Config.undrivenDout s.freeCount := rfl
@[simp] theorem adbitEffect_doutValid (m : Bool) (s : State) : (adbitEffect m s).doutValid = false := rfl
@[simp] theorem adbitEffect_rst (m : Bool) (s : State) : (adbitEffect m s).rst = s.rst := rfl
@[simp] theorem adbitEffect_cmdValid (m : Bool) (s : State) : (adbitEffect m s).cmdValid = s.cmdValid := rfl
@[simp] theorem adbitEffect_cmd (m : Bool) (s : State) : (adbitEffect m s).cmd = s.cmd := rfl
@[simp] theorem adbitEffect_key (m : Bool) (s : State) : (adbitEffect m s).key = s.key := rfl
@[simp] theorem adbitEffect_nonce (m : Bool) (s : State) : (adbitEffect m s).nonce = s.nonce := rfl
@[simp] theorem adbitEffect_tagIn (m : Bool) (s : State) : (adbitEffect m s).tagIn = s.tagIn := rfl
@[simp] theorem adbitEffect_mem (m : Bool) (s : State) : (adbitEffect m s).mem = s.mem := rfl
@[simp] theorem adbitEffect_orch (m : Bool) (s : State) : (adbitEffect m s).orch = s.orch := rfl
@[simp] theorem adbitEffect_cfg (m : Bool) (s : State) : (adbitEffect m s).cfg = s.cfg := rfl
@[simp] theorem adbitEffect_host (m : Bool) (s : State) : (adbitEffect m s).host = s.host := rfl
@[simp] theorem adbitEffect_freeCount (m : Bool) (s : State) : (adbitEffect m s).freeCount = s.freeCount + 1 := rfl

@[simp] theorem padEffect_dp (s : State) : (padEffect s).dp = perBit s.cfg true s.dp := rfl
@[simp] theorem padEffect_phase (s : State) : (padEffect s).phase = .padded := rfl
@[simp] theorem padEffect_ctr (s : State) : (padEffect s).ctr = s.ctr := rfl
@[simp] theorem padEffect_dir (s : State) : (padEffect s).dir = s.dir := rfl
@[simp] theorem padEffect_okv (s : State) : (padEffect s).okv = s.okv := rfl
@[simp] theorem padEffect_ok (s : State) : (padEffect s).ok = s.ok := rfl
@[simp] theorem padEffect_tagv (s : State) : (padEffect s).tagv = s.tagv := rfl
@[simp] theorem padEffect_err (s : State) : (padEffect s).err = s.err := rfl
@[simp] theorem padEffect_errcode (s : State) : (padEffect s).errcode = s.errcode := rfl
@[simp] theorem padEffect_wipe (s : State) : (padEffect s).wipe = s.wipe := rfl
@[simp] theorem padEffect_tago (s : State) : (padEffect s).tago = s.tago := rfl
@[simp] theorem padEffect_k (s : State) : (padEffect s).k = s.k := rfl
@[simp] theorem padEffect_dout (s : State) : (padEffect s).dout = Config.undrivenDout s.freeCount := rfl
@[simp] theorem padEffect_doutValid (s : State) : (padEffect s).doutValid = false := rfl
@[simp] theorem padEffect_rst (s : State) : (padEffect s).rst = s.rst := rfl
@[simp] theorem padEffect_cmdValid (s : State) : (padEffect s).cmdValid = s.cmdValid := rfl
@[simp] theorem padEffect_cmd (s : State) : (padEffect s).cmd = s.cmd := rfl
@[simp] theorem padEffect_key (s : State) : (padEffect s).key = s.key := rfl
@[simp] theorem padEffect_nonce (s : State) : (padEffect s).nonce = s.nonce := rfl
@[simp] theorem padEffect_tagIn (s : State) : (padEffect s).tagIn = s.tagIn := rfl
@[simp] theorem padEffect_mem (s : State) : (padEffect s).mem = s.mem := rfl
@[simp] theorem padEffect_orch (s : State) : (padEffect s).orch = s.orch := rfl
@[simp] theorem padEffect_cfg (s : State) : (padEffect s).cfg = s.cfg := rfl
@[simp] theorem padEffect_host (s : State) : (padEffect s).host = s.host := rfl
@[simp] theorem padEffect_freeCount (s : State) : (padEffect s).freeCount = s.freeCount + 1 := rfl

@[simp] theorem textEffect_dp (p out : Bool) (s : State) : (textEffect p out s).dp = perBit s.cfg p s.dp := rfl
@[simp] theorem textEffect_phase (p out : Bool) (s : State) : (textEffect p out s).phase = .text := rfl
@[simp] theorem textEffect_ctr (p out : Bool) (s : State) : (textEffect p out s).ctr = s.ctr := rfl
@[simp] theorem textEffect_dir (p out : Bool) (s : State) : (textEffect p out s).dir = s.dir := rfl
@[simp] theorem textEffect_okv (p out : Bool) (s : State) : (textEffect p out s).okv = s.okv := rfl
@[simp] theorem textEffect_ok (p out : Bool) (s : State) : (textEffect p out s).ok = s.ok := rfl
@[simp] theorem textEffect_tagv (p out : Bool) (s : State) : (textEffect p out s).tagv = s.tagv := rfl
@[simp] theorem textEffect_err (p out : Bool) (s : State) : (textEffect p out s).err = s.err := rfl
@[simp] theorem textEffect_errcode (p out : Bool) (s : State) : (textEffect p out s).errcode = s.errcode := rfl
@[simp] theorem textEffect_wipe (p out : Bool) (s : State) : (textEffect p out s).wipe = s.wipe := rfl
@[simp] theorem textEffect_tago (p out : Bool) (s : State) : (textEffect p out s).tago = s.tago := rfl
@[simp] theorem textEffect_k (p out : Bool) (s : State) : (textEffect p out s).k = s.k := rfl
@[simp] theorem textEffect_dout (p out : Bool) (s : State) : (textEffect p out s).dout = out := rfl
@[simp] theorem textEffect_doutValid (p out : Bool) (s : State) : (textEffect p out s).doutValid = true := rfl
@[simp] theorem textEffect_rst (p out : Bool) (s : State) : (textEffect p out s).rst = s.rst := rfl
@[simp] theorem textEffect_cmdValid (p out : Bool) (s : State) : (textEffect p out s).cmdValid = s.cmdValid := rfl
@[simp] theorem textEffect_cmd (p out : Bool) (s : State) : (textEffect p out s).cmd = s.cmd := rfl
@[simp] theorem textEffect_key (p out : Bool) (s : State) : (textEffect p out s).key = s.key := rfl
@[simp] theorem textEffect_nonce (p out : Bool) (s : State) : (textEffect p out s).nonce = s.nonce := rfl
@[simp] theorem textEffect_tagIn (p out : Bool) (s : State) : (textEffect p out s).tagIn = s.tagIn := rfl
@[simp] theorem textEffect_mem (p out : Bool) (s : State) : (textEffect p out s).mem = s.mem := rfl
@[simp] theorem textEffect_orch (p out : Bool) (s : State) : (textEffect p out s).orch = s.orch := rfl
@[simp] theorem textEffect_cfg (p out : Bool) (s : State) : (textEffect p out s).cfg = s.cfg := rfl
@[simp] theorem textEffect_host (p out : Bool) (s : State) : (textEffect p out s).host = s.host := rfl
@[simp] theorem textEffect_freeCount (p out : Bool) (s : State) : (textEffect p out s).freeCount = s.freeCount := rfl

@[simp] theorem tagEffect_dp (s : State) : (tagEffect s).dp = discardRegs s.cfg s.dp := rfl
@[simp] theorem tagEffect_phase (s : State) : (tagEffect s).phase = .done := rfl
@[simp] theorem tagEffect_ctr (s : State) : (tagEffect s).ctr = s.ctr := rfl
@[simp] theorem tagEffect_dir (s : State) : (tagEffect s).dir = s.dir := rfl
@[simp] theorem tagEffect_okv (s : State) : (tagEffect s).okv = s.okv := rfl
@[simp] theorem tagEffect_ok (s : State) : (tagEffect s).ok = s.ok := rfl
@[simp] theorem tagEffect_tagv (s : State) : (tagEffect s).tagv = true := rfl
@[simp] theorem tagEffect_err (s : State) : (tagEffect s).err = s.err := rfl
@[simp] theorem tagEffect_errcode (s : State) : (tagEffect s).errcode = s.errcode := rfl
@[simp] theorem tagEffect_wipe (s : State) : (tagEffect s).wipe = s.wipe := rfl
@[simp] theorem tagEffect_tago (s : State) : (tagEffect s).tago = s.dp.acc := rfl
@[simp] theorem tagEffect_k (s : State) : (tagEffect s).k = s.k := rfl
@[simp] theorem tagEffect_dout (s : State) : (tagEffect s).dout = Config.undrivenDout s.freeCount := rfl
@[simp] theorem tagEffect_doutValid (s : State) : (tagEffect s).doutValid = false := rfl
@[simp] theorem tagEffect_rst (s : State) : (tagEffect s).rst = s.rst := rfl
@[simp] theorem tagEffect_cmdValid (s : State) : (tagEffect s).cmdValid = s.cmdValid := rfl
@[simp] theorem tagEffect_cmd (s : State) : (tagEffect s).cmd = s.cmd := rfl
@[simp] theorem tagEffect_key (s : State) : (tagEffect s).key = s.key := rfl
@[simp] theorem tagEffect_nonce (s : State) : (tagEffect s).nonce = s.nonce := rfl
@[simp] theorem tagEffect_tagIn (s : State) : (tagEffect s).tagIn = s.tagIn := rfl
@[simp] theorem tagEffect_mem (s : State) : (tagEffect s).mem = s.mem := rfl
@[simp] theorem tagEffect_orch (s : State) : (tagEffect s).orch = s.orch := rfl
@[simp] theorem tagEffect_cfg (s : State) : (tagEffect s).cfg = s.cfg := rfl
@[simp] theorem tagEffect_host (s : State) : (tagEffect s).host = s.host := rfl
@[simp] theorem tagEffect_freeCount (s : State) : (tagEffect s).freeCount = s.freeCount + 1 := rfl

@[simp] theorem verifyEffect_dp (s : State) : (verifyEffect s).dp = discardRegs s.cfg s.dp := rfl
@[simp] theorem verifyEffect_phase (s : State) : (verifyEffect s).phase = .done := rfl
@[simp] theorem verifyEffect_ctr (s : State) : (verifyEffect s).ctr = s.ctr := rfl
@[simp] theorem verifyEffect_dir (s : State) : (verifyEffect s).dir = s.dir := rfl
@[simp] theorem verifyEffect_okv (s : State) : (verifyEffect s).okv = true := rfl
@[simp] theorem verifyEffect_ok (s : State) : (verifyEffect s).ok = (s.dp.acc == s.tagIn) := rfl
@[simp] theorem verifyEffect_tagv (s : State) : (verifyEffect s).tagv = s.tagv := rfl
@[simp] theorem verifyEffect_err (s : State) : (verifyEffect s).err = s.err := rfl
@[simp] theorem verifyEffect_errcode (s : State) : (verifyEffect s).errcode = s.errcode := rfl
@[simp] theorem verifyEffect_wipe (s : State) : (verifyEffect s).wipe = (if s.dp.acc == s.tagIn then s.wipe else true) := rfl
@[simp] theorem verifyEffect_tago (s : State) : (verifyEffect s).tago = s.tago := rfl
@[simp] theorem verifyEffect_k (s : State) : (verifyEffect s).k = s.k := rfl
@[simp] theorem verifyEffect_dout (s : State) : (verifyEffect s).dout = Config.undrivenDout s.freeCount := rfl
@[simp] theorem verifyEffect_doutValid (s : State) : (verifyEffect s).doutValid = false := rfl
@[simp] theorem verifyEffect_rst (s : State) : (verifyEffect s).rst = s.rst := rfl
@[simp] theorem verifyEffect_cmdValid (s : State) : (verifyEffect s).cmdValid = s.cmdValid := rfl
@[simp] theorem verifyEffect_cmd (s : State) : (verifyEffect s).cmd = s.cmd := rfl
@[simp] theorem verifyEffect_key (s : State) : (verifyEffect s).key = s.key := rfl
@[simp] theorem verifyEffect_nonce (s : State) : (verifyEffect s).nonce = s.nonce := rfl
@[simp] theorem verifyEffect_tagIn (s : State) : (verifyEffect s).tagIn = s.tagIn := rfl
@[simp] theorem verifyEffect_mem (s : State) : (verifyEffect s).mem = s.mem := rfl
@[simp] theorem verifyEffect_orch (s : State) : (verifyEffect s).orch = s.orch := rfl
@[simp] theorem verifyEffect_cfg (s : State) : (verifyEffect s).cfg = s.cfg := rfl
@[simp] theorem verifyEffect_host (s : State) : (verifyEffect s).host = s.host := rfl
@[simp] theorem verifyEffect_freeCount (s : State) : (verifyEffect s).freeCount = s.freeCount + 1 := rfl

@[simp] theorem initStep_dp (s : State) : (initStep s).dp = initDatapathStep s.cfg s.k s.ctr.toNat s.dp := rfl
@[simp] theorem initStep_phase (s : State) : (initStep s).phase = (if s.ctr.toNat = 511 then .ad else .init) := rfl
@[simp] theorem initStep_ctr (s : State) : (initStep s).ctr = s.ctr + 1 := rfl
@[simp] theorem initStep_dir (s : State) : (initStep s).dir = s.dir := rfl
@[simp] theorem initStep_okv (s : State) : (initStep s).okv = s.okv := rfl
@[simp] theorem initStep_ok (s : State) : (initStep s).ok = s.ok := rfl
@[simp] theorem initStep_tagv (s : State) : (initStep s).tagv = s.tagv := rfl
@[simp] theorem initStep_err (s : State) : (initStep s).err = s.err := rfl
@[simp] theorem initStep_errcode (s : State) : (initStep s).errcode = s.errcode := rfl
@[simp] theorem initStep_wipe (s : State) : (initStep s).wipe = s.wipe := rfl
@[simp] theorem initStep_tago (s : State) : (initStep s).tago = s.tago := rfl
@[simp] theorem initStep_k (s : State) : (initStep s).k = s.k := rfl
@[simp] theorem initStep_dout (s : State) : (initStep s).dout = Config.undrivenDout s.freeCount := rfl
@[simp] theorem initStep_doutValid (s : State) : (initStep s).doutValid = false := rfl
@[simp] theorem initStep_rst (s : State) : (initStep s).rst = s.rst := rfl
@[simp] theorem initStep_cmdValid (s : State) : (initStep s).cmdValid = s.cmdValid := rfl
@[simp] theorem initStep_cmd (s : State) : (initStep s).cmd = s.cmd := rfl
@[simp] theorem initStep_key (s : State) : (initStep s).key = s.key := rfl
@[simp] theorem initStep_nonce (s : State) : (initStep s).nonce = s.nonce := rfl
@[simp] theorem initStep_tagIn (s : State) : (initStep s).tagIn = s.tagIn := rfl
@[simp] theorem initStep_mem (s : State) : (initStep s).mem = s.mem := rfl
@[simp] theorem initStep_orch (s : State) : (initStep s).orch = s.orch := rfl
@[simp] theorem initStep_cfg (s : State) : (initStep s).cfg = s.cfg := rfl
@[simp] theorem initStep_host (s : State) : (initStep s).host = s.host := rfl
@[simp] theorem initStep_freeCount (s : State) : (initStep s).freeCount = s.freeCount + 1 := rfl

@[simp] theorem resetStep_dp (s : State) : (resetStep s).dp = State.reset.dp := rfl
@[simp] theorem resetStep_phase (s : State) : (resetStep s).phase = State.reset.phase := rfl
@[simp] theorem resetStep_ctr (s : State) : (resetStep s).ctr = State.reset.ctr := rfl
@[simp] theorem resetStep_dir (s : State) : (resetStep s).dir = State.reset.dir := rfl
@[simp] theorem resetStep_okv (s : State) : (resetStep s).okv = State.reset.okv := rfl
@[simp] theorem resetStep_ok (s : State) : (resetStep s).ok = State.reset.ok := rfl
@[simp] theorem resetStep_tagv (s : State) : (resetStep s).tagv = State.reset.tagv := rfl
@[simp] theorem resetStep_err (s : State) : (resetStep s).err = State.reset.err := rfl
@[simp] theorem resetStep_errcode (s : State) : (resetStep s).errcode = State.reset.errcode := rfl
@[simp] theorem resetStep_wipe (s : State) : (resetStep s).wipe = State.reset.wipe := rfl
@[simp] theorem resetStep_tago (s : State) : (resetStep s).tago = State.reset.tago := rfl
@[simp] theorem resetStep_k (s : State) : (resetStep s).k = State.reset.k := rfl
@[simp] theorem resetStep_dout (s : State) : (resetStep s).dout = State.reset.dout := rfl
@[simp] theorem resetStep_doutValid (s : State) : (resetStep s).doutValid = State.reset.doutValid := rfl
@[simp] theorem resetStep_rst (s : State) : (resetStep s).rst = State.reset.rst := rfl
@[simp] theorem resetStep_cmdValid (s : State) : (resetStep s).cmdValid = State.reset.cmdValid := rfl
@[simp] theorem resetStep_cmd (s : State) : (resetStep s).cmd = State.reset.cmd := rfl
@[simp] theorem resetStep_key (s : State) : (resetStep s).key = s.key := rfl
@[simp] theorem resetStep_nonce (s : State) : (resetStep s).nonce = s.nonce := rfl
@[simp] theorem resetStep_tagIn (s : State) : (resetStep s).tagIn = s.tagIn := rfl
@[simp] theorem resetStep_mem (s : State) : (resetStep s).mem = s.mem := rfl
@[simp] theorem resetStep_orch (s : State) : (resetStep s).orch = State.reset.orch := rfl
@[simp] theorem resetStep_cfg (s : State) : (resetStep s).cfg = s.cfg := rfl
@[simp] theorem resetStep_host (s : State) : (resetStep s).host = s.host := rfl
@[simp] theorem resetStep_freeCount (s : State) : (resetStep s).freeCount = s.freeCount := rfl

@[simp] theorem State.toStage_dp (s : State) (g : Stage) : (s.toStage g).dp = s.dp := rfl
@[simp] theorem State.toStage_phase (s : State) (g : Stage) : (s.toStage g).phase = s.phase := rfl
@[simp] theorem State.toStage_ctr (s : State) (g : Stage) : (s.toStage g).ctr = s.ctr := rfl
@[simp] theorem State.toStage_dir (s : State) (g : Stage) : (s.toStage g).dir = s.dir := rfl
@[simp] theorem State.toStage_okv (s : State) (g : Stage) : (s.toStage g).okv = s.okv := rfl
@[simp] theorem State.toStage_ok (s : State) (g : Stage) : (s.toStage g).ok = s.ok := rfl
@[simp] theorem State.toStage_tagv (s : State) (g : Stage) : (s.toStage g).tagv = s.tagv := rfl
@[simp] theorem State.toStage_err (s : State) (g : Stage) : (s.toStage g).err = s.err := rfl
@[simp] theorem State.toStage_errcode (s : State) (g : Stage) : (s.toStage g).errcode = s.errcode := rfl
@[simp] theorem State.toStage_wipe (s : State) (g : Stage) : (s.toStage g).wipe = s.wipe := rfl
@[simp] theorem State.toStage_tago (s : State) (g : Stage) : (s.toStage g).tago = s.tago := rfl
@[simp] theorem State.toStage_k (s : State) (g : Stage) : (s.toStage g).k = s.k := rfl
@[simp] theorem State.toStage_dout (s : State) (g : Stage) : (s.toStage g).dout = s.dout := rfl
@[simp] theorem State.toStage_doutValid (s : State) (g : Stage) : (s.toStage g).doutValid = s.doutValid := rfl
@[simp] theorem State.toStage_rst (s : State) (g : Stage) : (s.toStage g).rst = s.rst := rfl
@[simp] theorem State.toStage_cmdValid (s : State) (g : Stage) : (s.toStage g).cmdValid = s.cmdValid := rfl
@[simp] theorem State.toStage_cmd (s : State) (g : Stage) : (s.toStage g).cmd = s.cmd := rfl
@[simp] theorem State.toStage_key (s : State) (g : Stage) : (s.toStage g).key = s.key := rfl
@[simp] theorem State.toStage_nonce (s : State) (g : Stage) : (s.toStage g).nonce = s.nonce := rfl
@[simp] theorem State.toStage_tagIn (s : State) (g : Stage) : (s.toStage g).tagIn = s.tagIn := rfl
@[simp] theorem State.toStage_mem (s : State) (g : Stage) : (s.toStage g).mem = s.mem := rfl
@[simp] theorem State.toStage_orch (s : State) (g : Stage) : (s.toStage g).orch = { s.orch with stage := g, pos := 0, outByte := 0 } := rfl
@[simp] theorem State.toStage_cfg (s : State) (g : Stage) : (s.toStage g).cfg = s.cfg := rfl
@[simp] theorem State.toStage_host (s : State) (g : Stage) : (s.toStage g).host = s.host := rfl
@[simp] theorem State.toStage_freeCount (s : State) (g : Stage) : (s.toStage g).freeCount = s.freeCount := rfl

end Sys2Proof.Machine
end

