-- ==== Sys2Proof/Laws/Ops.lean ====
section
/-! SUPPORT. One lemma for each shared operation, which says once what it can do. -/

namespace Sys2Proof.Machine

/-- What a command that is subject to admission can do (rules R21, R49, R53). -/
theorem ifAdmitted_cases (i : Instr) (run : State → State) (s : State) :
    (s.phase = .init ∧ ifAdmitted i run s = .next s) ∨
    (s.phase = .error ∧ ifAdmitted i run s = .next s.quiet) ∨
    (s.phase ≠ .init ∧ s.phase ≠ .error ∧
      ((∃ p, phaseAfter i s.phase s.dir = some p) ∧ ifAdmitted i run s = .next (run s) ∨
        phaseAfter i s.phase s.dir = none ∧ ifAdmitted i run s = .next (takeFault .protocolViolation s))) := by
  unfold ifAdmitted
  cases hp : s.phase <;> simp
  all_goals cases phaseAfter i _ s.dir <;> simp

/-- A command with an admitted phase and direction follows its own rule. -/
theorem ifAdmitted_run {i : Instr} {run : State → State} {s : State} {p : Phase}
    (h : phaseAfter i s.phase s.dir = some p) : ifAdmitted i run s = .next (run s) := by
  rcases ifAdmitted_cases i run s with ⟨hp, _⟩ | ⟨hp, _⟩ | ⟨_, _, ⟨_, e⟩ | ⟨hn, _⟩⟩
  · rw [hp] at h; cases i <;> simp [phaseAfter] at h
  · rw [hp] at h; cases i <;> simp [phaseAfter] at h
  · exact e
  · rw [hn] at h; cases h

/-- Discarding leaves zero registers or the old ones (rule R27). -/
theorem discardRegs_cases (c : Config) (d : Datapath) :
    (c.zeroize = true ∧ discardRegs c d = Datapath.zero) ∨ (c.zeroize = false ∧ discardRegs c d = d) := by
  unfold discardRegs; cases c.zeroize <;> simp

/-- Reading the byte just written (rule R31). -/
theorem bufRead_bufWrite_same {b b' : List Byte} {k : Nat} {v : Byte} (h : bufWrite b k v = some b') :
    bufRead b' k = some v := by
  unfold bufWrite at h
  split at h
  · rename_i hk; cases h; simp [bufRead, hk]
  · cases h

/-- A write leaves every other byte alone (rule R31). -/
theorem bufRead_bufWrite_other {b b' : List Byte} {k j : Nat} {v : Byte} (h : bufWrite b k v = some b') (hj : j ≠ k) :
    bufRead b' j = bufRead b j := by
  unfold bufWrite at h
  split at h
  · cases h; simp [bufRead, Ne.symm hj]
  · cases h

/-- A write keeps a buffer's size (rule R31). -/
theorem bufWrite_length {b b' : List Byte} {k : Nat} {v : Byte} (h : bufWrite b k v = some b') : b'.length = b.length := by
  unfold bufWrite at h
  split at h
  · cases h; simp
  · cases h

/-- What the write of a bit address does (rules R34, R65). -/
theorem bufSetBit_cases (b : List Byte) (i : Nat) (v : Bool) :
    (i / 8 < b.length ∧ ∃ x, b[i / 8]? = some x ∧ bufSetBit b i v = some (b.set (i / 8) (setBit x (i % 8) v))) ∨
    (b.length ≤ i / 8 ∧ bufSetBit b i v = none) := by
  unfold bufSetBit bufRead bufWrite
  by_cases h : i / 8 < b.length
  · left; simp [h]
  · right; simp [h]; omega

/-- The write of a bit keeps a buffer's size. -/
theorem bufSetBit_length {b b' : List Byte} {i : Nat} {v : Bool} (h : bufSetBit b i v = some b') : b'.length = b.length := by
  rcases bufSetBit_cases b i v with ⟨_, x, _, e⟩ | ⟨_, e⟩
  · rw [e] at h; cases h; simp
  · rw [e] at h; cases h

/-- The message bit addresses of a byte stay inside that byte (rule R34). -/
theorem msgAddr_div (o : MsgBitOrder) (pos : Nat) : msgAddr o pos / 8 = pos / 8 := by
  cases o
  · rfl
  · simp only [msgAddr]; omega

/-- A message bit inside a buffer can be read. -/
theorem bufBit_msgAddr {b : List Byte} {o : MsgBitOrder} {pos : Nat} (h : pos < 8 * b.length) :
    ∃ v, bufBit b (msgAddr o pos) = some v := by
  have : pos / 8 < b.length := by omega
  simp [bufBit, bufRead, msgAddr_div, this]

/-- What the release rule can do (rules R126, R131, R161). -/
theorem release_cases (s t : State) :
    (t.orch.knowsM = true ∧ mustZero s t = true ∧ release s t = { t with mem := { t.mem with txtOut := zeroBytes t.mem.txtOut } }) ∨
    ((t.orch.knowsM = false ∨ mustZero s t = false) ∧ release s t = t) := by
  unfold release
  cases t.orch.knowsM <;> cases mustZero s t <;> simp

/-- The release rule touches `TXTOUT` only. -/
@[simp] theorem release_engine (s t : State) : (release s t).engine = t.engine := by
  rcases release_cases s t with ⟨_, _, e⟩ | ⟨_, e⟩
  · rw [e]; rfl
  · rw [e]

@[simp] theorem release_orch (s t : State) : (release s t).orch = t.orch := by
  rcases release_cases s t with ⟨_, _, e⟩ | ⟨_, e⟩ <;> rw [e]

/-- What the orchestrator does with the output bit of a text command: the byte is not full, or the full byte is written, or the
byte lies outside `TXTOUT` (rules R31, R122, R132). -/
theorem advanceOrchestrator_text {t : State} (hp : t.phase ≠ .error) (hs : t.orch.stage = .text) :
    (t.orch.pos % 8 < 7 ∧ advanceOrchestrator t = .next { t with orch := { t.orch with
        pos := t.orch.pos + 1
        outByte := assembleBit t.cfg.msgBitOrder t.orch.pos t.dout t.orch.outByte } }) ∨
    (t.orch.pos % 8 = 7 ∧
      ∃ u out, advanceOrchestrator t = .next u ∧ u.engine = t.engine ∧ u.cfg = t.cfg ∧ u.cmdValid = t.cmdValid ∧
        bufWrite t.mem.txtOut (t.orch.pos / 8) (assembleBit t.cfg.msgBitOrder t.orch.pos t.dout t.orch.outByte) = some out ∧
        u.mem = { t.mem with txtOut := out } ∧
        ((t.orch.pos + 1 < 8 * t.mem.txtIn.length ∧ u.orch = { t.orch with pos := t.orch.pos + 1, outByte := 0 }) ∨
          (8 * t.mem.txtIn.length ≤ t.orch.pos + 1 ∧ u.orch = { t.orch with stage := .pad, pos := 0, outByte := 0 }))) ∨
    (t.orch.pos % 8 = 7 ∧ t.mem.txtOut.length ≤ t.orch.pos / 8 ∧ advanceOrchestrator t = .refused .bufferIndexOutOfRange) := by
  unfold advanceOrchestrator bufWrite
  simp only [hp, hs, if_false]
  split
  · exact .inl ⟨‹_›, rfl⟩
  · rename_i h8
    have h7 : t.orch.pos % 8 = 7 := by omega
    by_cases hl : t.orch.pos / 8 < t.mem.txtOut.length
    · refine .inr (.inl ⟨h7, ?_⟩)
      simp only [hl, if_true]
      split
      · exact ⟨_, _, rfl, rfl, rfl, rfl, rfl, rfl, .inl ⟨‹_›, rfl⟩⟩
      · exact ⟨_, _, rfl, rfl, rfl, rfl, rfl, rfl, .inr ⟨by omega, rfl⟩⟩
    · exact .inr (.inr ⟨h7, by omega, by simp [hl]⟩)

/-- The host's move changes nothing of the engine, the parameters or the counter of free values. -/
@[simp] theorem hostMove_engine (s : State) : (hostMove s).engine = s.engine := by
  unfold hostMove
  split
  all_goals first | rfl | (split <;> first | rfl | (unfold startCall; split <;> rfl))

@[simp] theorem hostMove_cfg (s : State) : (hostMove s).cfg = s.cfg := by
  unfold hostMove
  split
  all_goals first | rfl | (split <;> first | rfl | (unfold startCall; split <;> rfl))

/-- What the orchestrator can do with the port. -/
theorem presentOrchestrator_cases (s : State) :
    ((s.orch.stage = .idle ∨ s.cmdValid = true) ∧ presentOrchestrator s = .next s) ∨
    (s.orch.stage ≠ .idle ∧ s.cmdValid = false ∧
      ((∃ i, orchCommand s = .ok i ∧ presentOrchestrator s = .next { s with cmdValid := true, cmd := encode i }) ∨
        ∃ r, orchCommand s = .error r ∧ presentOrchestrator s = .refused r)) := by
  unfold presentOrchestrator
  split
  · exact .inl ⟨‹_›, rfl⟩
  · rename_i h
    rw [not_or] at h
    refine .inr ⟨h.1, by simpa using h.2, ?_⟩
    cases e : orchCommand s with
    | error r => exact .inr ⟨r, rfl, rfl⟩
    | ok i => exact .inl ⟨i, rfl, rfl⟩

/-- Driving the ports changes nothing of the engine or the parameters. -/
theorem drivePorts_engine {s t : State} (h : drivePorts s = .next t) : t.engine = s.engine ∧ t.cfg = s.cfg := by
  unfold drivePorts at h
  rcases presentOrchestrator_cases (hostMove { s with rst := false }) with ⟨_, e⟩ | ⟨_, _, ⟨i, _, e⟩ | ⟨r, _, e⟩⟩ <;>
    rw [e] at h <;> cases h
  · exact ⟨hostMove_engine { s with rst := false }, by simp⟩
  · exact ⟨hostMove_engine { s with rst := false }, by simp⟩

end Sys2Proof.Machine
end

