-- ==== Sys2Proof/Laws/Memory.lean ====
section
/-! SUPPORT. Every operation keeps the form of the buffers, and the reset buffers have it (rules R6, R30, R31). -/

namespace Sys2Proof.Machine

theorem reset_memory_wf : State.reset.mem.wf = true := by decide

/-- The form depends on the sizes only. -/
theorem Memory.wf_iff (m : Memory) : m.wf = true ↔ m.txtOut.length = m.txtIn.length ∧ m.ad.length < 2 ^ Config.lenw := by
  simp [Memory.wf]

theorem bufWrite_keeps_wf {m : Memory} {k : Nat} {v : Byte} {out : List Byte} (hm : m.wf = true)
    (h : bufWrite m.txtOut k v = some out) : ({ m with txtOut := out } : Memory).wf = true := by
  rw [Memory.wf_iff] at hm ⊢
  exact ⟨by simpa [bufWrite_length h] using hm.1, hm.2⟩

theorem bufSetBit_keeps_wf {m : Memory} {i : Nat} {v : Bool} {out : List Byte} (hm : m.wf = true)
    (h : bufSetBit m.txtOut i v = some out) : ({ m with txtOut := out } : Memory).wf = true := by
  rw [Memory.wf_iff] at hm ⊢
  exact ⟨by simpa [bufSetBit_length h] using hm.1, hm.2⟩

theorem zeroBytes_keeps_wf {m : Memory} (hm : m.wf = true) : ({ m with txtOut := zeroBytes m.txtOut } : Memory).wf = true := by
  rw [Memory.wf_iff] at hm ⊢
  exact ⟨by simpa [zeroBytes] using hm.1, hm.2⟩

theorem release_keeps_wf {s t : State} (h : t.mem.wf = true) : (release s t).mem.wf = true := by
  unfold release
  split
  · exact zeroBytes_keeps_wf h
  · exact h

theorem startCall_keeps_wf {d : Bool} {k n g a x : List Byte} {s : State} (h : s.mem.wf = true) :
    (startCall d k n g a x s).mem.wf = true := by
  unfold startCall
  split
  · rename_i hl
    rw [Memory.wf_iff]
    simp only [lengthsAllowed, Bool.and_eq_true, decide_eq_true_eq] at hl
    exact ⟨by simp [zeroBytes], hl.2⟩
  · exact h

theorem hostMove_keeps_wf {s : State} (h : s.mem.wf = true) : (hostMove s).mem.wf = true := by
  unfold hostMove
  split
  all_goals first
    | exact h
    | (split <;> first | exact h | exact startCall_keeps_wf h)

theorem drivePorts_keeps_wf {s t : State} (h : s.mem.wf = true) (e : drivePorts s = .next t) : t.mem.wf = true := by
  have hm : (hostMove { s with rst := false }).mem.wf = true := hostMove_keeps_wf h
  unfold drivePorts at e
  rcases presentOrchestrator_cases (hostMove { s with rst := false }) with ⟨_, q⟩ | ⟨_, _, ⟨i, _, q⟩ | ⟨r, _, q⟩⟩ <;>
    rw [q] at e <;> cases e <;> exact hm

theorem advanceOrchestrator_keeps_wf {s t : State} (h : s.mem.wf = true) (e : advanceOrchestrator s = .next t) :
    t.mem.wf = true := by
  unfold advanceOrchestrator at e
  split at e
  · cases e; exact h
  · split at e
    · cases e; exact h
    · cases e; exact h
    · split at e
      · cases e
      · split at e
        · cases e; exact h
        · split at e <;> (cases e; exact h)
    · simp only at e
      split at e
      · cases e; exact h
      · split at e
        · cases e
        · rename_i out ho
          have hw := bufWrite_keeps_wf h ho
          split at e <;> (cases e; exact hw)
    · cases e; exact h
    · cases e; exact h

end Sys2Proof.Machine
end

