-- ==== Sys2Proof/Laws/PerInstr.lean ====
section
/-! SUPPORT. The per-instruction family: the fields of every encoded command pass the checks of rule R46. -/

namespace Sys2Proof.Laws.EncodedFields

/-- The opcode rule R48 gives a command. -/
def opcode : Instr → Nat
  | .nop => 0
  | .load _ => 1
  | .adbit _ => 2
  | .encbit _ => 3
  | .decbit _ => 4
  | .pad => 5
  | .tag => 6
  | .verify => 7
  | .clear => 8

/-- The operand bit of a command; 0 for Format N (rule R46). -/
def operand : Instr → Bool
  | .nop => false
  | .load d => d
  | .adbit m => m
  | .encbit p => p
  | .decbit c => c
  | .pad => false
  | .tag => false
  | .verify => false
  | .clear => false

/-- The fields of a command's word: its opcode of rule R48, reserved bits 000, its operand; the word passes every check, and
is the word of its fields. -/
def Statement (i : Instr) : Prop :=
  fieldsOf (encode i) = ⟨BitVec.ofNat 4 (opcode i), 0, operand i⟩ ∧ (fieldsOf (encode i)).wf = true ∧
    (fieldsOf (encode i)).toWord = encode i

theorem nop : Statement .nop := by unfold Statement; decide

theorem load (d : Bool) : Statement (.load d) := by cases d <;> (unfold Statement; decide)

theorem adbit (m : Bool) : Statement (.adbit m) := by cases m <;> (unfold Statement; decide)

theorem encbit (p : Bool) : Statement (.encbit p) := by cases p <;> (unfold Statement; decide)

theorem decbit (c : Bool) : Statement (.decbit c) := by cases c <;> (unfold Statement; decide)

theorem pad : Statement .pad := by unfold Statement; decide

theorem tag : Statement .tag := by unfold Statement; decide

theorem verify : Statement .verify := by unfold Statement; decide

theorem clear : Statement .clear := by unfold Statement; decide

end Sys2Proof.Laws.EncodedFields
end

