-- ==== Sys2Proof/Laws/Step.lean ====
section
/-! SUPPORT. What a step can do, said once: the four kinds of step, and when driving the ports answers a state. -/

namespace Sys2Proof.Machine

/-- A step is a reset, an initialisation step, the execution of the word on the port, or a period of waiting
(rules R21, R90, R160). -/
theorem step_cases (s : State) :
    (s.rst = true ∧ step s = drivePorts (resetStep s)) ∨
    (s.rst = false ∧ s.phase = .init ∧ step s = drivePorts (initStep s)) ∨
    (s.rst = false ∧ s.phase ≠ .init ∧ s.cmdValid = true ∧ step s = afterCommand s (takeWord s.cmd s)) ∨
    (s.rst = false ∧ s.phase ≠ .init ∧ s.cmdValid = false ∧ step s = drivePorts s.quiet) := by
  unfold step machineStep
  cases hr : s.rst
  · by_cases hp : s.phase = .init
    · simp [hp]
    · cases hv : s.cmdValid <;> simp [hp]
  · simp

/-- A call leaves the orchestrator idle, or at its first line with LOAD as its command. -/
theorem startCall_stage (d : Bool) (k n g a x : List Byte) (s : State) :
    (startCall d k n g a x s).orch.stage = s.orch.stage ∨ (startCall d k n g a x s).orch.stage = .load := by
  unfold startCall
  split
  · exact .inr rfl
  · exact .inl rfl

/-- After the host's move a driven port is still driven, or the orchestrator is at its first line. -/
theorem hostMove_driven {s : State} (h : s.driven) : (hostMove s).driven ∨ (hostMove s).orch.stage = .load := by
  unfold State.driven at h ⊢
  unfold hostMove
  split
  · exact .inl h
  · exact .inl h
  · exact .inl h
  · rcases h with h | h
    · exact .inl (.inl h)
    · by_cases hs : s.orch.stage = .idle
      · exact .inl (.inl hs)
      · exact .inl (.inr (by simp [h, hs]))
  · exact .inl (.inl rfl)
  · split
    · exact .inl (.inr rfl)
    · exact .inl h
  · split
    · rename_i hf
      have hi : s.orch.stage = .idle := by simp [State.portFree] at hf; exact hf.1.1
      rcases startCall_stage false _ _ _ _ _ { s with host := _ } with e | e
      · exact .inl (.inl (e.trans hi))
      · exact .inr e
    · exact .inl h
  · split
    · rename_i hf
      have hi : s.orch.stage = .idle := by simp [State.portFree] at hf; exact hf.1.1
      rcases startCall_stage true _ _ _ _ _ { s with host := _ } with e | e
      · exact .inl (.inl (e.trans hi))
      · exact .inr e
    · exact .inl h

/-- The orchestrator at its first line presents LOAD. -/
theorem orchCommand_load {s : State} (h : s.orch.stage = .load) : orchCommand s = .ok (.load s.orch.decrypt) := by
  unfold orchCommand; rw [h]

/-- A driven port can be driven again: the answer is a state, with the engine and the parameters as before. -/
theorem drivePorts_of_driven {s : State} (h : s.driven) :
    ∃ t, drivePorts s = .next t ∧ t.engine = s.engine ∧ t.cfg = s.cfg := by
  have hd : (hostMove { s with rst := false }).driven ∨ (hostMove { s with rst := false }).orch.stage = .load :=
    hostMove_driven h
  have : ∃ t, drivePorts s = .next t := by
    unfold drivePorts
    rcases presentOrchestrator_cases (hostMove { s with rst := false }) with ⟨_, e⟩ | ⟨h1, h2, ⟨i, _, e⟩ | ⟨r, hr, _⟩⟩
    · exact ⟨_, e⟩
    · exact ⟨_, e⟩
    · rcases hd with (hd | hd) | hd
      · exact absurd hd h1
      · rw [h2] at hd; cases hd
      · rw [orchCommand_load hd] at hr; cases hr
  obtain ⟨t, e⟩ := this
  exact ⟨t, e, drivePorts_engine e⟩

/-- With no further host move a driven port stays as it is, and `rst` is low. -/
theorem drivePorts_no_host {s : State} (h : s.driven) (hh : s.host = []) : drivePorts s = .next { s with rst := false } := by
  have hm : hostMove { s with rst := false } = { s with rst := false } := by unfold hostMove; simp [hh]
  unfold drivePorts
  rw [hm]
  rcases presentOrchestrator_cases { s with rst := false } with ⟨_, e⟩ | ⟨h1, h2, _⟩
  · exact e
  · rcases h with h | h
    · exact absurd h h1
    · have : s.cmdValid = false := h2
      rw [h] at this; cases this

end Sys2Proof.Machine
end

