-- ==== Sys2Proof/Tests/Slice0.lean ====
section
/-! SUPPORT. The model's own tests, each on one word or one step, with results from the spec (95_test_vectors.md and the rules' worked examples), and a witness for each statement's hypotheses. -/

namespace Sys2Proof.Tests

open Sys2Proof.Machine Sys2Proof.Machine.Spec

/-! Decoding: words written out from the table of rule R48. -/

theorem test_decode_NOP : decode 0b00000000#8 = some .nop := by decide
theorem test_decode_LOAD : decode 0b00010000#8 = some (.load false) ∧ decode 0b00010001#8 = some (.load true) := by decide
theorem test_decode_ADBIT : decode 0b00100000#8 = some (.adbit false) ∧ decode 0b00100001#8 = some (.adbit true) := by decide
theorem test_decode_ENCBIT : decode 0b00110000#8 = some (.encbit false) ∧ decode 0b00110001#8 = some (.encbit true) := by decide
theorem test_decode_DECBIT : decode 0b01000000#8 = some (.decbit false) ∧ decode 0b01000001#8 = some (.decbit true) := by decide
theorem test_decode_PAD : decode 0b01010000#8 = some .pad := by decide
theorem test_decode_TAG : decode 0b01100000#8 = some .tag := by decide
theorem test_decode_VERIFY : decode 0b01110000#8 = some .verify := by decide
theorem test_decode_CLEAR : decode 0b10000000#8 = some .clear := by decide

/-- Row P6: the illegal words it names, and the Format N words with `d` = 1 of rule R50. -/
theorem test_decode_illegal : [0x90#8, 0x22, 0x01, 0x51, 0x61, 0x71, 0x81, 0xFF, 0x1E].map decode = List.replicate 9 none := by decide

theorem test_decodeTableWord : decodeTableWord 8 0x41 = some (.decbit true) ∧ decodeTableWord 16 0x41 = none ∧
    decodeTableWord 8 0x141 = none := by decide

/-- Rule R54's example. -/
theorem test_asm : (Instr.adbit true).asm = "ADBIT 1" ∧ Instr.pad.asm = "PAD" := by decide

/-! WellFormed: one ill-formed term for each check, which the check refuses. -/

theorem smoke_opcode : (⟨9, 0, false⟩ : Fields).opcodeKnown = false ∧ (⟨9, 0, false⟩ : Fields).wf = false := by decide
theorem smoke_reserved : (⟨2, 1, false⟩ : Fields).reservedClear = false ∧ (⟨2, 1, false⟩ : Fields).wf = false := by decide
theorem smoke_operand : (⟨5, 0, true⟩ : Fields).operandAllowed = false ∧ (⟨5, 0, true⟩ : Fields).wf = false := by decide
theorem smoke_taps : ({ defaultConfig with fNfsr := [[97]] } : Config).tapsInRange = false ∧
    ({ defaultConfig with fNfsr := [[97]] } : Config).wf = false := by decide
theorem smoke_hNfsr : ({ defaultConfig with hNfsr := 7 } : Config).twoNfsrInputs = false ∧
    ({ defaultConfig with hNfsr := 7 } : Config).wf = false := by decide
theorem smoke_memory : (⟨[], [1], []⟩ : Memory).wf = false := by decide
theorem test_defaults_wf : defaultConfig.wf = true := by decide

/-! States for the tests. -/

/-- A state in a phase and direction, with given registers. -/
def inPhase (p : Phase) (dir : Bool) (d : Datapath) : State := { State.reset with phase := p, dir := dir, dp := d }

/-- A state with a word on the port. -/
def onPort (s : State) (w : CmdWord) : State := { s with cmdValid := true, cmd := w }

/-- A state with buffers that an earlier call has given the orchestrator. -/
def withBuffers (s : State) (m : Memory) : State := { s with mem := m, orch := { s.orch with knowsM := true } }

/-- The registers of row V14, with the MAC registers of row V24. -/
def regsV14 : Datapath :=
  ⟨0x5190feda277a4c28fc377c61075dce9e, 0xa10d04b240699a838a1d921ca352a3c3, 0x0123456789abcdef, 0x8000000000000001⟩

/-- Row V20, the registers at the end of initialisation with zero key and nonce. -/
def regsV20 : Datapath :=
  ⟨0xe18e9c6730ede2643396b021945a398f, 0x20bc8d4378c210338235d055c6e0f781, 0x6a1a46c0b9329ae8, 0xfe6b4c20e7ad99b1⟩

/-- Row V25, the registers after the prefix byte 00. -/
def regsV25 : Datapath :=
  ⟨0x64a4e18e9c6730ede2643396b021945a, 0x99dd20bc8d4378c210338235d055c6e0, 0x6a1a46c0b9329ae8,
    0xcffe6b4c20e7ad99⟩

/-- One field of the state an outcome answers. -/
def after {α : Type} (r : Result) (f : State → α) : Option α := (nextOf r).map f

/-! BitWindow (rows V12, V13). -/

theorem test_extract : let r : Reg128 := 0x0F0E0D0C0B0A09080706050403020100
    extract r 8 .w1 = some 1 ∧ extract r 4 .w8 = some 0x10 ∧ extract r 12 .w32 = some 0x50403020 ∧
    extract r 93 .w32 = some 0x78706860 ∧ extract r 97 .w32 = none := by decide
theorem test_shiftIn : let r : Reg128 := 0x0F0E0D0C0B0A09080706050403020100
    shiftIn1 r true = 0x87870686058504840383028201810080 ∧
    shiftIn .w8 r (0xAB : BitVec 8) = 0xAB0F0E0D0C0B0A090807060504030201 ∧
    shiftIn .w32 r (0xDEADBEEF : BitVec 32) = 0xDEADBEEF0F0E0D0C0B0A090807060504 := by decide
theorem test_shiftIn64 : shiftIn64 0x8000000000000001 true = 0xC000000000000000 ∧
    shiftIn64 0x8000000000000001 false = 0x4000000000000000 := by decide
theorem test_setBit : setBit (0 : Byte) 3 true = 0x08 ∧ setBit (0xFF : Byte) 3 false = 0xF7 ∧
    setBit (0 : Reg64) 63 true = 0x8000000000000000 := by decide
theorem test_byteWindow32 : byteWindow32 [0, 1, 2, 3, 4, 5, 6, 7] 12 = some 0x50403020 := by decide
/-- Rule R33's example. -/
theorem test_portOfBytes :
    portOfBytes 128 [0, 1, 2, 3, 4, 5, 6, 7, 8, 9, 10, 11, 12, 13, 14, 15] = 0x0F0E0D0C0B0A09080706050403020100 := by decide
theorem test_msgAddr : msgAddr .lsbFirst 9 = 9 ∧ msgAddr .msbFirst 9 = 14 := by decide

/-! Feedback functions and engine clocks (rows V14, V15, V17). -/

theorem test_feedback_ones : let o : Reg128 := BitVec.allOnes 128
    feedbackH defaultConfig o o = true ∧ feedbackL o = false ∧ feedbackF defaultConfig o o = false ∧ ksb defaultConfig o o = true ∧
    feedbackF defaultConfig o 0 = true ∧ feedbackF defaultConfig 0 o = true := by decide
theorem test_feedback_V15 : let l : Reg128 := 0x67d9849f3c94f8e0d974b822f0a612e1
    let n : Reg128 := 0x7bb2dae32250963d5d2d816782f2681e
    feedbackH defaultConfig l n = true ∧ feedbackL l = false ∧ feedbackF defaultConfig l n = true ∧ ksb defaultConfig l n = false := by
  decide
theorem test_batched_V14 : feedbackLW .w32 regsV14.lfsr = (0x20C3ACA5 : BitVec 32) ∧
    feedbackFW .w32 defaultConfig regsV14.lfsr regsV14.nfsr = (0x0D606DC2 : BitVec 32) ∧
    ksbW .w32 defaultConfig regsV14.lfsr regsV14.nfsr = (0xC6A229A9 : BitVec 32) ∧
    feedbackHW .w32 defaultConfig regsV14.lfsr regsV14.nfsr = (0x35BE4F8E : BitVec 32) := by decide
theorem test_genClock_V17 : (genClock defaultConfig regsV14).lfsr = 0xa8c87f6d13bd26147e1bbe3083aee74f ∧
    (genClock defaultConfig regsV14).nfsr = 0x508682592034cd41c50ec90e51a951e1 := by decide
theorem test_genClockW_V17 : (genClockW .w32 defaultConfig regsV14).lfsr = 0x20c3aca55190feda277a4c28fc377c61 ∧
    (genClockW .w32 defaultConfig regsV14).nfsr = 0x0d606dc2a10d04b240699a838a1d921c := by decide

/-! Initialisation steps (rows V18, V20). -/

theorem test_initStepA_V18 : (initStepA defaultConfig regsV14).lfsr = 0x28c87f6d13bd26147e1bbe3083aee74f ∧
    (initStepA defaultConfig regsV14).nfsr = 0xd08682592034cd41c50ec90e51a951e1 := by decide
theorem test_initStepB_V18 : (initStepB defaultConfig (1#128 <<< 64) 0 regsV14).lfsr = 0xa8c87f6d13bd26147e1bbe3083aee74f ∧
    (initStepB defaultConfig (1#128 <<< 64) 0 regsV14).nfsr = 0xd08682592034cd41c50ec90e51a951e1 := by decide
theorem test_initStepC_V18 : (initStepC defaultConfig 5 regsV14).acc = 0x0123456789abcdef ||| 0x20 ∧
    (initStepC defaultConfig 5 regsV14).nfsr = 0x508682592034cd41c50ec90e51a951e1 := by decide
theorem test_initStepD_V18 : (initStepD defaultConfig 63 { regsV14 with auth := 0 }).auth = 0x8000000000000000 := by decide
/-- From the row "after t = 319" to the row "after t = 320". -/
theorem test_init_319 : let s : State := { inPhase .init false
      ⟨0xda5f39c51e4e1dcccf3d235f1c61be25, 0x49a4da82ef299d5772aec12647ead727, 0, 0⟩ with ctr := 320 }
    after (step s) (fun t => (t.dp.lfsr, t.dp.nfsr, t.ctr, t.status)) =
      some (0xed2f9ce28f270ee6679e91af8e30df12, 0x24d26d417794ceabb957609323f56b93, 321, 0x0001) := by decide
/-- From the row "after t = 383" to the row "after t = 384". -/
theorem test_init_383 : let s : State := { inPhase .init false
      ⟨0x289f6b3890b9fedfda5f39c51e4e1dcc, 0xe98ef7cbb283ca9649a4da82ef299d57, 0, 0⟩ with ctr := 384 }
    after (step s) (fun t => (t.dp.lfsr, t.dp.nfsr, t.ctr)) =
      some (0x944fb59c485cff6fed2f9ce28f270ee6, 0xf4c77be5d941e54b24d26d417794ceab, 385) := by decide
/-- The row "after t = 448". -/
theorem test_init_447 : let s : State := { inPhase .init false
      ⟨0x3396b021945a398f289f6b3890b9fedf, 0x8235d055c6e0f781e98ef7cbb283ca96, 0x6a1a46c0b9329ae8, 0⟩ with
      ctr := 448 }
    after (step s) (fun t => (t.dp.acc, t.dp.auth)) = some (0x6a1a46c0b9329ae8, 1) := by decide
/-- Rule R97: the last step leads to AD with ctr 0; status 0x0012. -/
theorem test_init_511 : after (step { inPhase .init false regsV14 with ctr := 511 }) (fun t => (t.ctr, t.status, t.cmdReady)) =
    some (0, 0x0012, true) := by decide

/-! The commands, on one step each. -/

theorem test_NOP : after (step (onPort (inPhase .text false regsV14) 0x00)) (fun t => (t.dp, t.status, t.doutValid, t.cmdValid)) =
    some (regsV14, 0x0013, false, false) := by decide
/-- Rule R91's example, and status of row P7. -/
theorem test_LOAD : let s : State := { inPhase .idle false regsV14 with
      key := 0x0F0E0D0C0B0A09080706050403020100, nonce := 0x0B0A09080706050403020100 }
    after (step (onPort s 0x10)) (fun t => (t.dp.nfsr, t.dp.lfsr, t.dp.acc, t.status)) =
      some (0x0F0E0D0C0B0A09080706050403020100, 0x7fffffff0b0a09080706050403020100, 0x0123456789abcdef, 0x0001) := by decide
/-- LOAD in the middle of a transaction (rule R144): ERROR, ProtocolViolation, decrypt. -/
theorem test_LOAD_refused : after (step (onPort (inPhase .ad true regsV14) 0x11)) State.status = some 0x251F := by decide
/-- Rule R104's example. -/
theorem test_ADBIT : after (step (onPort (inPhase .ad false regsV20) 0x20)) (fun t => (t.dp.acc, t.dp.auth, t.status)) =
    some (regsV20.acc, (regsV20.auth >>> 1) ||| 0x8000000000000000, 0x0012) := by decide
/-- Row P5: ADBIT after a text bit. -/
theorem test_ADBIT_refused : after (step (onPort (inPhase .text false regsV14) 0x20)) (fun t => (t.dp, t.status, t.tago)) =
    some (Datapath.zero, 0x2517, 0) := by decide
/-- Row P5: ENCBIT 1 after the prefix outputs 1 and leaves ACC 71 37 d5 99 8c 2d e4 a5. -/
theorem test_ENCBIT : after (step (onPort (inPhase .ad false regsV25) 0x31)) (fun t => (t.dout, t.doutValid, t.dp.acc, t.status)) =
    some (true, true, 0xa5e42d8c99d53771, 0x0013) := by decide
theorem test_ENCBIT_in_decrypt : after (step (onPort (inPhase .ad true regsV25) 0x31)) State.status = some 0x251F := by decide
/-- From the same registers DECBIT of the ciphertext bit 1 outputs the plaintext bit 1 (rule R121). -/
theorem test_DECBIT : after (step (onPort (inPhase .ad true regsV25) 0x41)) (fun t => (t.dout, t.doutValid, t.dp.acc, t.status)) =
    some (true, true, 0xa5e42d8c99d53771, 0x001B) := by decide
/-- The recovered bit, not the ciphertext bit, is authenticated: c = 0 recovers p = 0 and leaves ACC. -/
theorem test_DECBIT_mac : after (step (onPort (inPhase .ad true regsV25) 0x40)) (fun t => (t.dout, t.dp.acc)) =
    some (false, regsV25.acc) := by decide
/-- Row V27. -/
theorem test_PAD : after (step (onPort (inPhase .ad false regsV25) 0x50)) (fun t => (t.dp, t.status)) =
    some (⟨0x99293863a719cc3b78990ce5ac086516, 0xe677482f2350de30840ce08d741571b8, 0xa5e42d8c99d53771,
      0xe7ff35a61073d6cc⟩, 0x0014) := by decide
/-- Row P8: PAD with no AD stream. -/
theorem test_PAD_P8 : after (step (onPort (inPhase .ad false regsV20) 0x50)) (fun t => t.dp.acc) = some 0x94710ae05e9f0359 := by
  decide
/-- Row P1. -/
theorem test_TAG : after (step (onPort (inPhase .padded false { regsV14 with acc := 0xA5E42D8C99D53771 }) 0x60))
      (fun t => (t.tago, t.tagOutBuf, t.dp, t.status)) =
    some (0xA5E42D8C99D53771, [0x71, 0x37, 0xd5, 0x99, 0x8c, 0x2d, 0xe4, 0xa5], Datapath.zero, 0x0035) := by decide
/-- Row P6: TAG in IDLE. -/
theorem test_TAG_refused : after (step (onPort State.reset 0x60)) State.status = some 0x2517 := by decide
/-- Rows V34 a and b. -/
theorem test_VERIFY_match : let s : State := { inPhase .padded true { regsV14 with acc := 0x9726669b8b4c389a } with
      tagIn := 0x9726669b8b4c389a }
    after (step (onPort s 0x70)) (fun t => (t.ok, t.wipe, t.tago, t.status)) = some (true, false, 0, 0x00DD) := by decide
theorem test_VERIFY_mismatch : let s : State := { inPhase .padded true { regsV14 with acc := 0x9726669b8b4c389a } with
      tagIn := 0x9726669b8b4c389b }
    after (step (onPort (withBuffers s ⟨[], [0x67, 5], [1, 0x80]⟩) 0x70)) (fun t => (t.ok, t.mem.txtOut, t.status)) = some (false, [0, 0], 0x205D) := by decide
/-- Row P5: CLEAR leaves ERROR; and CLEAR of an unfinished decrypt zeroes `TXTOUT` (rule R126). -/
theorem test_CLEAR : after (step (onPort { inPhase .error false regsV14 with err := true, errcode := .protocolViolation, wipe := true } 0x80))
    State.status = some 0x0010 := by decide
theorem test_CLEAR_decrypt : after (step (onPort (withBuffers (inPhase .text true regsV14) ⟨[], [7, 7], [1, 2]⟩) 0x80))
    (fun t => (t.mem.txtOut, t.status)) = some ([0, 0], 0x0010) := by decide
/-- Rule R161: after a reset the orchestrator no longer knows M, so an illegal word does not zero `TXTOUT`; before, it does. -/
theorem test_R161 : let s := withBuffers State.reset ⟨[], [7, 7], [1, 2]⟩
    after (step (onPort (resetStep s) 0x90)) (fun t => (t.mem.txtOut, t.wipe)) = some ([1, 2], true) ∧
    after (step (onPort s 0x90)) (fun t => (t.mem.txtOut, t.wipe)) = some ([0, 0], true) := by decide
/-- Rules R37, R132: the seventh bit of a text byte writes nothing, the eighth writes the byte. ENCBIT 1 on the registers of row
V25 outputs 1 (row P5). -/
theorem test_whole_bytes : let s := fun n => { onPort (inPhase .text false regsV25) 0x31 with
      mem := ⟨[], [0xff], [0]⟩, orch := { Orchestrator.atRest with stage := .text, pos := n, outByte := 0x05, knowsM := true } }
    after (step (s 6)) (fun t => (t.mem.txtOut, t.orch.outByte)) = some ([0], 0x45) ∧
    after (step (s 7)) (fun t => (t.mem.txtOut, t.orch.outByte, t.cmd)) = some ([0x85], 0, 0x50) := by decide
/-- Row P6: an illegal word from IDLE, and one in AD. -/
theorem test_illegal : after (step (onPort State.reset 0x90)) State.status = some 0x2317 ∧
    after (step (onPort (inPhase .ad false regsV14) 0x22)) State.status = some 0x2317 := by decide
/-- Row P7: a word presented in INIT stays on the port. -/
theorem test_hold : after (step (onPort (inPhase .init false regsV14) 0x90)) (fun t => (t.cmdValid, t.cmd, t.status)) =
    some (true, 0x90, 0x0001) := by decide
/-- Rule R160. -/
theorem test_reset_step : after (step { inPhase .init true regsV14 with rst := true, ctr := 77 }) (fun t => (t.ctr, t.status)) =
    some (0, 0x0010) := by decide
theorem test_withFetchWord : after (step (State.reset.withFetchWord 8 0x10)) (fun t => t.phase) = some .init := by decide

/-! Authenticator and orchestrator. -/

/-- Row V24. -/
theorem test_authenticate : let d : Datapath := ⟨0, 0, 0x0123456789abcdef, 0x8000000000000001⟩
    (authenticate true false d).acc = 0x8123456789abcdee ∧ (authenticate true false d).auth = 0x4000000000000000 ∧
    (authenticate false true d).acc = 0x0123456789abcdef ∧ (authenticate false true d).auth = 0xc000000000000000 := by decide
/-- Rows V1 to V4 and V23. -/
theorem test_encodeDer : encodeDer 0 = some [0x00] ∧ encodeDer 127 = some [0x7F] ∧ encodeDer 128 = some [0x81, 0x80] ∧
    encodeDer 65535 = some [0x82, 0xFF, 0xFF] ∧ encodeDer 65536 = some [0x83, 1, 0, 0] ∧
    encodeDer (2 ^ 64 - 1) = some [0x88, 0xFF, 0xFF, 0xFF, 0xFF, 0xFF, 0xFF, 0xFF, 0xFF] ∧ encodeDer (2 ^ 64) = none := by decide
/-- Row P2: the 35 words of its program. -/
theorem test_transactionCommands : (transactionCommands .lsbFirst false [0xa5] [0x01, 0x80]).map (fun l => l.map encode) =
    some [0x10, 0x21, 0x20, 0x20, 0x20, 0x20, 0x20, 0x20, 0x20, 0x21, 0x20, 0x21, 0x20, 0x20, 0x21, 0x20, 0x21,
      0x31, 0x30, 0x30, 0x30, 0x30, 0x30, 0x30, 0x30, 0x30, 0x30, 0x30, 0x30, 0x30, 0x30, 0x30, 0x31, 0x50, 0x60] := by decide
/-- A call with a 15-byte key is refused before any command (rule R142). -/
theorem test_contract : after (step { State.reset with host := [.encrypt (List.replicate 15 0) (List.replicate 12 0) [] []] })
    (fun t => (t.orch.report, t.cmdValid, t.orch.stage)) = some (.contractViolation, false, .idle) := by decide
/-- A call with the right lengths puts LOAD on the port (rule R132). -/
theorem test_call : after (step { State.reset with host := [.encrypt (List.replicate 16 0) (List.replicate 12 0) [] [5]] })
    (fun t => (t.cmdValid, t.cmd, t.mem.txtOut)) = some (true, 0x10, [0]) := by decide

/-! Witnesses: for each statement with hypotheses, a state and operands that meet them. -/

/-- A state in the middle of a text of the orchestrator's: bit 3 of the byte 01 is on the port. -/
def midText : State :=
  { inPhase .text false regsV14 with
    mem := ⟨[0xa5], [0x01, 0x80], [0, 0]⟩, orch := ⟨.text, 3, 0x07, false, true, .none⟩, cmdValid := true, cmd := 0x30 }

theorem midText_inv : Inv midText where
  engine := by constructor <;> decide
  orch := by
    constructor
    · decide
    · decide
    · decide
    · decide
    · intro _; exact ⟨rfl, .encbit false, rfl, rfl⟩
    · intro h; exact absurd h (by decide)
    · intro _; decide
    · intro h; exact absurd h (by decide)
    · intro h; exact absurd h (by decide)

/-- The same text with the last bit of its byte on the port. -/
def endOfByte : State := { midText with orch := { midText.orch with pos := 7 } }

theorem endOfByte_inv : Inv endOfByte where
  engine := by constructor <;> decide
  orch := by
    constructor
    · decide
    · decide
    · decide
    · decide
    · intro _; exact ⟨rfl, .encbit false, rfl, rfl⟩
    · intro h; exact absurd h (by decide)
    · intro _; decide
    · intro h; exact absurd h (by decide)
    · intro h; exact absurd h (by decide)

/-- A state after a reset in the middle of a decrypt: stale bytes in `TXTOUT`, and a host about to present an illegal word. -/
def afterReset : State := { State.reset with mem := ⟨[], [0x67], [1]⟩, host := [.command 0x90 0 0 0] }

theorem afterReset_inv : Inv afterReset where
  engine := by constructor <;> decide
  orch := by
    constructor
    · decide
    · decide
    · decide
    · decide
    · intro h; exact absurd rfl h
    · intro h; exact absurd h (by decide)
    · intro h; exact absurd h (by decide)
    · intro h; exact absurd h (by decide)
    · intro h; exact absurd h (by decide)

/-- A state in ERROR after an illegal word. -/
def inError : State := { inPhase .error false Datapath.zero with err := true, errcode := .illegalCommand, wipe := true }

theorem witness_StepRunsDecodedInstruction : let s := onPort (inPhase .ad false regsV20) 0x21; s.rst = false ∧ s.phase ≠ .init ∧ s.cmdValid = true ∧ decode s.cmd = some (.adbit true) ∧ s.orch.stage = .idle ∧ s.host = [] := by decide
theorem witness_StepRunsDecodedInstruction_illegal : let s := onPort (inPhase .ad false regsV20) 0x22; s.rst = false ∧ s.phase ≠ .init ∧ s.phase ≠ .error ∧ s.cmdValid = true ∧
    decode s.cmd = none ∧ s.orch.stage = .idle ∧ s.host = [] := by decide
theorem witness_StepRunsDecodedInstruction_illegal_in_ERROR : let s := onPort inError 0xff; s.rst = false ∧ s.phase = .error ∧ s.cmdValid = true ∧ decode s.cmd = none ∧ s.orch.stage = .idle ∧ s.host = [] := by decide
theorem witness_HostMovesNeverChangeAnExecutedCommand : let s := { onPort (inPhase .ad false regsV20) 0x21 with host := [.reset, .encrypt [] [] [] []] }
    s.rst = false ∧ s.phase ≠ .init ∧ s.cmdValid = true ∧ decode s.cmd = some (.adbit true) ∧ s.orch.stage = .idle ∧ ∃ t, exec (.adbit true) s = .next t := ⟨rfl, by decide, rfl, rfl, rfl, _, rfl⟩
theorem witness_CommandIsHeldDuringInit : let s := onPort (inPhase .init false regsV14) 0x20; s.rst = false ∧ s.phase = .init ∧ s.driven ∧ s.cmdValid = true ∧
    s.host.head? ≠ some .withdraw ∧ s.host.head? ≠ some .abandon ∧ s.host = [] := ⟨rfl, rfl, .inl rfl, rfl, by decide, by decide, rfl⟩
theorem witness_BlockHoldsItsStateWithoutACommand : let s := inPhase .padded true regsV14; s.rst = false ∧ s.phase ≠ .init ∧ s.cmdValid = false ∧ s.orch.stage = .idle ∧ s.host = [] := by decide
theorem witness_ResetWinsOverEverything : let s := { onPort (inPhase .init true regsV14) 0x90 with rst := true }; s.rst = true ∧ s.host = [] := by decide
theorem witness_NopChangesNothing : (inPhase .error true regsV14).phase ≠ .init ∧ (inPhase .text true regsV14).phase ≠ .init ∧
    (inPhase .text true regsV14).phase ≠ .error := by decide
theorem witness_LoadStartsATransaction_admitted_1 : (inPhase .idle false regsV14).phase = .idle := by decide
theorem witness_LoadStartsATransaction_admitted_2 : (inPhase .done true Datapath.zero).phase = .done := by decide
theorem witness_LoadStartsATransaction_elsewhere : let s := inPhase .padded true regsV14; s.phase ≠ .init ∧ s.phase ≠ .error ∧ ¬ (s.phase = .idle ∨ s.phase = .done) := by decide
theorem witness_LoadStartsATransaction_ignored : inError.phase = .error := by decide
theorem witness_AdbitAuthenticatesOneBit_admitted_1 : (inPhase .ad true regsV20).phase = .ad := by decide
theorem witness_AdbitAuthenticatesOneBit_elsewhere : let s := inPhase .text true regsV14; s.phase ≠ .init ∧ s.phase ≠ .error ∧ ¬ s.phase = .ad := by decide
theorem witness_AdbitAuthenticatesOneBit_ignored : inError.phase = .error := by decide
theorem witness_EncbitEncryptsAndAuthenticates_admitted_1 : let s := inPhase .ad false regsV20; (s.phase = .ad ∨ s.phase = .text) ∧ s.dir = false := by decide
theorem witness_EncbitEncryptsAndAuthenticates_admitted_2 : let s := inPhase .text false regsV20; (s.phase = .ad ∨ s.phase = .text) ∧ s.dir = false := by decide
theorem witness_EncbitEncryptsAndAuthenticates_elsewhere : let s := inPhase .text true regsV14; s.phase ≠ .init ∧ s.phase ≠ .error ∧ ¬ ((s.phase = .ad ∨ s.phase = .text) ∧ s.dir = false) := by decide
theorem witness_EncbitEncryptsAndAuthenticates_ignored : inError.phase = .error := by decide
theorem witness_DecbitRecoversAndAuthenticates_admitted_1 : let s := inPhase .ad true regsV25; ((s.phase = .ad ∨ s.phase = .text) ∧ s.dir = true) ∧ true = (true ^^ ksb s.cfg s.dp.lfsr s.dp.nfsr) := by decide
theorem witness_DecbitRecoversAndAuthenticates_admitted_2 : let s := inPhase .text true regsV20; (s.phase = .ad ∨ s.phase = .text) ∧ s.dir = true := by decide
theorem witness_DecbitRecoversAndAuthenticates_elsewhere : let s := inPhase .text false regsV14; s.phase ≠ .init ∧ s.phase ≠ .error ∧ ¬ ((s.phase = .ad ∨ s.phase = .text) ∧ s.dir = true) := by decide
theorem witness_DecbitRecoversAndAuthenticates_ignored : inError.phase = .error := by decide
theorem witness_PadAuthenticatesOneFinalOne_admitted_1 : (inPhase .ad false regsV25).phase = .ad := by decide
theorem witness_PadAuthenticatesOneFinalOne_admitted_2 : (inPhase .text true regsV25).phase = .text := by decide
theorem witness_PadAuthenticatesOneFinalOne_elsewhere : let s := inPhase .padded true regsV14; s.phase ≠ .init ∧ s.phase ≠ .error ∧ ¬ (s.phase = .ad ∨ s.phase = .text) := by decide
theorem witness_PadAuthenticatesOneFinalOne_ignored : inError.phase = .error := by decide
theorem witness_TagLatchesTheAccumulator_admitted_1 : let s := inPhase .padded false regsV25; s.phase = .padded ∧ s.dir = false := by decide
theorem witness_TagLatchesTheAccumulator_elsewhere : let s := inPhase .padded true regsV14; s.phase ≠ .init ∧ s.phase ≠ .error ∧ ¬ (s.phase = .padded ∧ s.dir = false) := by decide
theorem witness_TagLatchesTheAccumulator_ignored : inError.phase = .error := by decide
theorem witness_VerifyComparesAllBits_admitted_1 : let s := inPhase .padded true regsV25; s.phase = .padded ∧ s.dir = true := by decide
theorem witness_VerifyComparesAllBits_elsewhere : let s := inPhase .padded false regsV14; s.phase ≠ .init ∧ s.phase ≠ .error ∧ ¬ (s.phase = .padded ∧ s.dir = true) := by decide
theorem witness_VerifyComparesAllBits_ignored : inError.phase = .error := by decide
theorem witness_ClearReturnsToIdle : (inPhase .text true regsV14).phase ≠ .init ∧ inError.phase ≠ .init := by decide
theorem witness_ErrorConsumesEveryOtherWord : inError.phase = .error ∧ (0x90#8 ≠ 0x80#8) ∧ (0x80#8 = 0x80#8) := by decide
theorem witness_AdmissionFollowsTheTable : let s := inPhase .text false regsV14; s.phase ≠ .init ∧ s.phase ≠ .error ∧ tableR52 .pad s.phase s.dir = some .padded ∧
    tableR52 (.adbit true) s.phase s.dir = none := by decide
theorem witness_FaultEntryIsTheSameForBothFaults : let s := inPhase .text false regsV14; s.phase ≠ .init ∧ s.phase ≠ .error ∧ (0x9F#8 ∉ legalWords) ∧ decode 0x20#8 = some (.adbit false) ∧
    tableR52 (.adbit false) s.phase s.dir = none := by decide
theorem witness_ErrorIsLeftOnlyByClearOrReset : let s := onPort inError 0x90; s.phase = .error ∧ s.rst = false ∧ ¬ (s.cmdValid = true ∧ s.cmd = 0x80#8) ∧ ∃ t, step s = .next t := ⟨rfl, rfl, by decide, _, rfl⟩
theorem witness_DoutValidOnlyForTextCommands : (inPhase .ad false regsV14).phase ≠ .init := by decide
theorem witness_CommandsLeaveBuffersAndInputsAlone : ∃ t, exec (.encbit true) midText = .next t := ⟨_, rfl⟩
theorem witness_LatchesAreWrittenOnlyByTheirRules : let s := inPhase .padded false regsV25; s.phase ≠ .init ∧ ∃ t, exec .tag s = .next t ∧ t.tago ≠ s.tago ∧ t.phase ≠ s.phase ∧
    t.phase = .done ∧ s.cfg.zeroize = true ∧ t.dp ≠ s.dp := ⟨by decide, _, rfl, by decide, by decide, rfl, rfl, by decide⟩
theorem witness_LatchesAreWrittenOnlyByTheirRules_load : let s := { inPhase .idle false regsV14 with key := 5 }; s.phase ≠ .init ∧ ∃ t, exec (.load true) s = .next t ∧ t.k ≠ s.k ∧ t.dir ≠ s.dir ∧
    t.phase = .init ∧ t.dp ≠ s.dp := ⟨by decide, _, rfl, by decide, by decide, rfl, by decide⟩
theorem witness_LatchesAreWrittenOnlyByTheirRules_clear : let s := inPhase .idle false regsV14; s.phase ≠ .init ∧ ∃ t, exec .clear s = .next t ∧ s.cfg.zeroize = true ∧ t.phase = s.phase ∧ t.dp ≠ s.dp := ⟨by decide, _, rfl, rfl, rfl, by decide⟩
theorem witness_LatchesAreWrittenOnlyByTheirRules_bit : let s := inPhase .ad false regsV14; s.phase ≠ .init ∧ ∃ t, exec (.adbit true) s = .next t ∧ t.dp ≠ s.dp := ⟨by decide, _, rfl, by decide⟩
theorem witness_InitialisationStepA : let s := { onPort (inPhase .init true regsV14) 0x20 with ctr := 5 }; s.rst = false ∧ s.phase = .init ∧ s.driven ∧ s.ctr.toNat ≤ 319 := ⟨rfl, rfl, .inl rfl, by decide⟩
theorem witness_InitialisationStepB : let s := { onPort (inPhase .init true regsV14) 0x20 with ctr := 320 }; s.rst = false ∧ s.phase = .init ∧ s.driven ∧ 320 ≤ s.ctr.toNat ∧ s.ctr.toNat ≤ 383 := ⟨rfl, rfl, .inl rfl, by decide, by decide⟩
theorem witness_InitialisationStepC : let s := { onPort (inPhase .init true regsV14) 0x20 with ctr := 447 }; s.rst = false ∧ s.phase = .init ∧ s.driven ∧ 384 ≤ s.ctr.toNat ∧ s.ctr.toNat ≤ 447 := ⟨rfl, rfl, .inl rfl, by decide, by decide⟩
theorem witness_InitialisationStepD : let s := { onPort (inPhase .init true regsV14) 0x20 with ctr := 511 }; s.rst = false ∧ s.phase = .init ∧ s.driven ∧ 448 ≤ s.ctr.toNat ∧ s.ctr.toNat = 511 := ⟨rfl, rfl, .inl rfl, by decide, by decide⟩
theorem witness_InitialisationStepD_low : let s := { inPhase .init true regsV14 with ctr := 448 }; s.phase = .init ∧ 448 ≤ s.ctr.toNat ∧ s.ctr.toNat < 511 := by decide
theorem witness_InitialisationAlwaysEnds : let s := { inPhase .init true regsV14 with ctr := 500 }; s.rst = false ∧ s.phase = .init ∧ s.driven ∧ s.host = [] ∧ 11 < 512 - s.ctr.toNat := ⟨rfl, rfl, .inl rfl, rfl, by decide⟩
theorem witness_InitialisationDependsOnKeyAndNonceOnly : 0 < 64 ∧ 63 < 64 := by decide
theorem witness_ShiftsAndSetBitMoveExactlyTheirBits : 127 < 128 ∧ 0 < 8 ∧ 7 < 8 ∧ 63 < 64 := by decide
theorem witness_ByteWindowsAreBitWindows : extract (portOfBytes (8 * [0x12#8, 0x34#8].length) [0x12#8, 0x34#8]) 8 .w8 = some (0x34 : BitVec 8) ∧ 7 < Width.bits .w8 := by decide
theorem witness_WidthsAreEquivalent : extract (0x1234 : BitVec 16) 4 .w8 = some (0x23 : BitVec 8) ∧ 7 < Width.bits .w8 := by decide
theorem witness_UpdateMovesBothRegisters : 127 < 128 ∧ 0 < 128 := by decide
theorem witness_BatchedLanesAreLaterClocks : defaultConfig.tapsInRange = true ∧ 31 < Width.bits .w32 := by decide
theorem witness_BatchedClockEqualsSerialClocks : defaultConfig.tapsInRange = true := by decide
theorem witness_BatchedInitialisationEqualsSerial : defaultConfig.tapsInRange = true ∧ Width.bits .w32 ∣ 480 ∧ 480 + Width.bits .w32 ≤ 512 := by decide
theorem witness_StrideTextEqualsSerialText : ({ defaultConfig with fNfsr := [[0, 96], []] } : Config).tapsInRange = true := by decide
theorem witness_MacLaw : 63 < 64 ∧ 0 < 64 := by decide
theorem witness_TagIsASumOfAuthValues : 2 ≤ [true, false].length ∧ 63 < 64 := by decide
theorem witness_LengthPrefixForm : (127 : Nat) < 128 ∧ (128 : Nat) ≤ 128 ∧ 128 < 2 ^ 64 ∧ 2 ^ 64 ≤ 2 ^ 64 ∧ 0 < 1 := by decide
theorem witness_DecryptUndoesEncrypt : ([0xa5] : List Byte).length < 2 ^ 64 ∧ ([] : List Byte).length < 2 ^ 64 := by decide
theorem witness_FailedDecryptReleasesOnlyZeros : ([0xa5] : List Byte).length < 2 ^ 64 := by decide
theorem witness_EncryptCallGivesCiphertextAndTag : let s := { inPhase .done true regsV14 with host := [.encrypt (List.replicate 16 1) (List.replicate 12 2) [0xa5] [1, 0x80]] }
    s.rst = false ∧ s.portFree = true ∧ (s.phase = .idle ∨ s.phase = .done) ∧ (List.replicate 16 (1 : Byte)).length = 16 ∧
    (List.replicate 12 (2 : Byte)).length = 12 ∧ encodeDer ([0xa5] : List Byte).length = some [1] ∧
    s.host = [.encrypt (List.replicate 16 1) (List.replicate 12 2) [0xa5] [1, 0x80]] := by decide
theorem witness_DecryptCallGivesPlaintextOrZeros : let s := { inPhase .idle false regsV14 with host := [.decrypt (List.replicate 16 1) (List.replicate 12 2) (List.replicate 8 3) [] [1]] }
    s.rst = false ∧ s.portFree = true ∧ (s.phase = .idle ∨ s.phase = .done) ∧ (List.replicate 16 (1 : Byte)).length = 16 ∧
    (List.replicate 12 (2 : Byte)).length = 12 ∧ (List.replicate 8 (3 : Byte)).length = 8 ∧ encodeDer ([] : List Byte).length = some [0] ∧
    s.host = [.decrypt (List.replicate 16 1) (List.replicate 12 2) (List.replicate 8 3) [] [1]] := by decide
theorem witness_OutputBitLandsAtItsOperandsAddress : Inv midText ∧ midText.takesCommand = true ∧ midText.orch.stage = .text ∧ midText.host = [] ∧ midText.orch.pos % 8 < 7 := ⟨midText_inv, by decide, by decide, by decide, by decide⟩
theorem witness_OutputBitLandsAtItsOperandsAddress_eighth : Inv endOfByte ∧ endOfByte.takesCommand = true ∧ endOfByte.orch.stage = .text ∧ endOfByte.host = [] ∧ endOfByte.orch.pos % 8 = 7 ∧
    15 / 8 ≠ msgAddr endOfByte.cfg.msgBitOrder endOfByte.orch.pos / 8 := ⟨endOfByte_inv, by decide, by decide, by decide, by decide, by decide⟩
theorem witness_ReleaseRuleForEveryCommand_cleared : let s := onPort (withBuffers (inPhase .text true regsV14) ⟨[], [1], [9]⟩) 0x80; s.takesCommand = true ∧ s.host = [] ∧ (∃ t, step s = .next t) ∧
    s.orch.knowsM = true ∧ s.cmd = 0x80#8 ∧ s.dir = true ∧ s.phase ≠ .idle ∧ ¬ (s.phase = .done ∧ s.ok = true) := ⟨rfl, rfl, ⟨_, rfl⟩, rfl, rfl, rfl, by decide, by decide⟩
theorem witness_ReleaseRuleForEveryCommand_wiped : let s := onPort (withBuffers (inPhase .padded true regsV14) ⟨[], [1], [9]⟩) 0x70; s.takesCommand = true ∧ s.host = [] ∧
    s.orch.knowsM = true ∧ ∃ t, step s = .next t ∧ t.wipe = true := ⟨rfl, rfl, rfl, _, rfl, by decide⟩
theorem witness_ReleaseRuleForEveryCommand_after_reset : let s := onPort { inPhase .padded true regsV14 with mem := ⟨[], [1], [9]⟩ } 0x70; s.takesCommand = true ∧ s.host = [] ∧
    s.orch.knowsM = false ∧ s.orch.stage ≠ .text ∧ ∃ t, step s = .next t ∧ t.wipe = true := ⟨rfl, rfl, rfl, by decide, _, rfl, by decide⟩
theorem witness_AfterResetNothingTouchesTheBuffers : Inv afterReset ∧ afterReset.orch.knowsM = false ∧ afterReset.host.head? = some (.command 0x90 0 0 0) := ⟨afterReset_inv, rfl, rfl⟩
theorem witness_ReleaseRuleForEveryCommand_kept : let s := onPort (withBuffers (inPhase .ad true regsV14) ⟨[], [1], [9]⟩) 0x20; s.takesCommand = true ∧ s.host = [] ∧ s.orch.knowsM = true ∧
    (∃ t, step s = .next t ∧ t.wipe = false) ∧ ¬ (s.cmd = 0x80#8) ∧ s.orch.stage ≠ .text := ⟨rfl, rfl, rfl, ⟨_, rfl, by decide⟩, by decide, by decide⟩
theorem witness_WrongLengthsAreRefusedBeforeAnyCommand_encrypt : let s := { inPhase .done false regsV14 with host := [.encrypt (List.replicate 15 1) (List.replicate 12 2) [] [1], .idle] }
    s.rst = false ∧ s.phase ≠ .init ∧ s.portFree = true ∧ s.host = .encrypt (List.replicate 15 1) (List.replicate 12 2) [] [1] :: [.idle] ∧
    ¬ ((List.replicate 15 (1 : Byte)).length = 16 ∧ (List.replicate 12 (2 : Byte)).length = 12 ∧ ([] : List Byte).length < 2 ^ 64) := by decide
theorem witness_WrongLengthsAreRefusedBeforeAnyCommand_decrypt : let s := { inPhase .idle false regsV14 with host := [.decrypt (List.replicate 16 1) (List.replicate 12 2) [7] [] [1]] }
    s.rst = false ∧ s.phase ≠ .init ∧ s.portFree = true ∧ s.host = .decrypt (List.replicate 16 1) (List.replicate 12 2) [7] [] [1] :: [] ∧
    ¬ ((List.replicate 16 (1 : Byte)).length = 16 ∧ (List.replicate 12 (2 : Byte)).length = 12 ∧ ([7] : List Byte).length = 8 ∧
      ([] : List Byte).length < 2 ^ 64) := by decide
theorem witness_WrongLengthsAreRefusedBeforeAnyCommand_nonce : let s := { inPhase .error false regsV14 with host := [.encrypt (List.replicate 16 1) (List.replicate 13 2) [] [1]] }
    s.rst = false ∧ s.phase ≠ .init ∧ s.portFree = true ∧ s.host = .encrypt (List.replicate 16 1) (List.replicate 13 2) [] [1] :: [] ∧
    ¬ ((List.replicate 16 (1 : Byte)).length = 16 ∧ (List.replicate 13 (2 : Byte)).length = 12 ∧ ([] : List Byte).length < 2 ^ 64) := by decide
theorem witness_WrongLengthsAreRefusedBeforeAnyCommand_length : ∃ ad : List Byte,
    let s := { State.reset with host := [.encrypt (List.replicate 16 1) (List.replicate 12 2) ad [1]] }
    s.rst = false ∧ s.phase ≠ .init ∧ s.portFree = true ∧ s.host = .encrypt (List.replicate 16 1) (List.replicate 12 2) ad [1] :: [] ∧
    ¬ ((List.replicate 16 (1 : Byte)).length = 16 ∧ (List.replicate 12 (2 : Byte)).length = 12 ∧ ad.length < 2 ^ 64) :=
  ⟨List.replicate (2 ^ 64) 0, rfl, by decide, rfl, rfl, fun q => by rw [List.length_replicate (n := 2 ^ 64)] at q; exact absurd q.2.2 (Nat.lt_irrefl _)⟩
theorem witness_OrchestratorNeverFaults : Inv midText ∧ midText.rst = false ∧ midText.orch.stage ≠ .idle ∧ midText.orch.stage ≠ .load := ⟨midText_inv, by decide, by decide, by decide⟩
theorem witness_TransactionCommandCount : encodeDer (List.replicate 128 (7 : Byte)).length = some [0x81, 0x80] := 
  (congrArg encodeDer List.length_replicate).trans (by decide)
theorem witness_EveryStepKeepsTheInvariantAndNeverStops : Inv midText := midText_inv
theorem witness_ZeroizeAndResetContentsAreNotObservable : sameAtPorts (inPhase .done true Datapath.zero)
    { inPhase .done true regsV14 with cfg := { defaultConfig with zeroize := false } } ∧
    sameAtPorts midText { midText with cfg := { defaultConfig with zeroize := false } } := 
  ⟨⟨false, regsV14, rfl, trivial⟩, ⟨false, regsV14, rfl, rfl⟩⟩

end Sys2Proof.Tests
end

section
/-! PROOF. The commands: where each is admitted, what it does there, and what no command touches (rules R49, R52, R53). -/

namespace Sys2Proof.Machine

/-- What a command does to the state where it is admitted (rule R49 step 4). -/
def effect : Instr → State → State
  | .nop => State.quiet
  | .load d => loadEffect d
  | .adbit m => adbitEffect m
  | .encbit p => encbitEffect p
  | .decbit c => decbitEffect c
  | .pad => padEffect
  | .tag => tagEffect
  | .verify => verifyEffect
  | .clear => returnToIdle

/-! The rows of rule R52's table, one for each command. -/

@[simp] theorem phaseAfter_error (i : Instr) (dir : Bool) : phaseAfter i .error dir = none := by cases i <;> rfl

theorem phaseAfter_nop {p q : Phase} {dir : Bool} :
    phaseAfter .nop p dir = some q ↔ p ≠ .init ∧ p ≠ .error ∧ p = q := by
  cases p <;> simp [phaseAfter]

theorem phaseAfter_load {d dir : Bool} {p q : Phase} :
    phaseAfter (.load d) p dir = some q ↔ (p = .idle ∨ p = .done) ∧ q = .init := by
  cases p <;> simp [phaseAfter, eq_comm]

theorem phaseAfter_adbit {m dir : Bool} {p q : Phase} : phaseAfter (.adbit m) p dir = some q ↔ p = .ad ∧ q = .ad := by
  cases p <;> simp [phaseAfter, eq_comm]

theorem phaseAfter_encbit {b dir : Bool} {p q : Phase} :
    phaseAfter (.encbit b) p dir = some q ↔ (p = .ad ∨ p = .text) ∧ dir = false ∧ q = .text := by
  cases p <;> cases dir <;> simp [phaseAfter, eq_comm]

theorem phaseAfter_decbit {b dir : Bool} {p q : Phase} :
    phaseAfter (.decbit b) p dir = some q ↔ (p = .ad ∨ p = .text) ∧ dir = true ∧ q = .text := by
  cases p <;> cases dir <;> simp [phaseAfter, eq_comm]

theorem phaseAfter_pad {dir : Bool} {p q : Phase} :
    phaseAfter .pad p dir = some q ↔ (p = .ad ∨ p = .text) ∧ q = .padded := by
  cases p <;> simp [phaseAfter, eq_comm]

theorem phaseAfter_tag {dir : Bool} {p q : Phase} :
    phaseAfter .tag p dir = some q ↔ p = .padded ∧ dir = false ∧ q = .done := by
  cases p <;> cases dir <;> simp [phaseAfter, eq_comm]

theorem phaseAfter_verify {dir : Bool} {p q : Phase} :
    phaseAfter .verify p dir = some q ↔ p = .padded ∧ dir = true ∧ q = .done := by
  cases p <;> cases dir <;> simp [phaseAfter, eq_comm]

theorem phaseAfter_clear {dir : Bool} {p q : Phase} :
    phaseAfter .clear p dir = some q ↔ p ≠ .init ∧ p ≠ .error ∧ q = .idle := by
  cases p <;> simp [phaseAfter, eq_comm]

theorem effect_phase {i : Instr} {s : State} {p : Phase} (h : phaseAfter i s.phase s.dir = some p) :
    (effect i s).phase = p := by
  cases i with
  | nop => exact (phaseAfter_nop.mp h).2.2
  | load d => exact (phaseAfter_load.mp h).2.symm
  | adbit m => obtain ⟨hp, rfl⟩ := phaseAfter_adbit.mp h; exact hp
  | encbit b => exact (phaseAfter_encbit.mp h).2.2.symm
  | decbit b => exact (phaseAfter_decbit.mp h).2.2.symm
  | pad => exact (phaseAfter_pad.mp h).2.symm
  | tag => exact (phaseAfter_tag.mp h).2.2.symm
  | verify => exact (phaseAfter_verify.mp h).2.2.symm
  | clear => exact (phaseAfter_clear.mp h).2.2.symm

/-! The outcome of a command, by where it stands. -/

theorem exec_clear {s : State} (h : s.phase ≠ .init) : exec .clear s = .next (returnToIdle s) := by
  change execClear s = _
  unfold execClear
  split
  · exact absurd ‹_› h
  · rfl

theorem exec_nop {s : State} : exec .nop s = .next (if s.phase = .init then s else s.quiet) := by
  change execNop s = _
  unfold execNop
  cases s.phase <;> rfl

theorem exec_init {i : Instr} {s : State} (h : s.phase = .init) : exec i s = .next s := by
  cases i with
  | nop => simp [exec_nop, h]
  | clear => change execClear s = _; unfold execClear; rw [h]
  | _ => change ifAdmitted _ _ s = _; unfold ifAdmitted; rw [h]

theorem exec_error {i : Instr} {s : State} (h : s.phase = .error) (hi : i ≠ .clear) : exec i s = .next s.quiet := by
  cases i with
  | nop => simp [exec_nop, h]
  | clear => exact absurd rfl hi
  | _ => change ifAdmitted _ _ s = _; unfold ifAdmitted; rw [h]

theorem exec_admitted {i : Instr} {s : State} {p : Phase} (h : phaseAfter i s.phase s.dir = some p) :
    exec i s = .next (effect i s) := by
  cases i with
  | nop => obtain ⟨hp, _, _⟩ := phaseAfter_nop.mp h; simp [exec_nop, hp, effect]
  | clear => exact exec_clear (phaseAfter_clear.mp h).1
  | _ => exact ifAdmitted_run h

theorem exec_refused {i : Instr} {s : State} (hi : s.phase ≠ .init) (he : s.phase ≠ .error)
    (h : phaseAfter i s.phase s.dir = none) : exec i s = .next (takeFault .protocolViolation s) := by
  have refused : ∀ run, ifAdmitted i run s = .next (takeFault .protocolViolation s) := by
    intro run
    rcases ifAdmitted_cases i run s with ⟨hp, _⟩ | ⟨hp, _⟩ | ⟨_, _, ⟨⟨p, hp⟩, _⟩ | ⟨_, e⟩⟩
    · exact absurd hp hi
    · exact absurd hp he
    · rw [h] at hp; cases hp
    · exact e
  cases i with
  | nop => rw [phaseAfter_nop.mpr ⟨hi, he, rfl⟩] at h; cases h
  | clear => rw [phaseAfter_clear.mpr ⟨hi, he, rfl⟩] at h; cases h
  | _ => exact refused _

/-- What a command can do, said once (rules R21, R49, R52, R53). -/
theorem exec_cases (i : Instr) (s : State) :
    (s.phase = .init ∧ exec i s = .next s) ∨
    (s.phase = .error ∧ i ≠ .clear ∧ exec i s = .next s.quiet) ∨
    (s.phase = .error ∧ i = .clear ∧ exec i s = .next (returnToIdle s)) ∨
    (∃ p, phaseAfter i s.phase s.dir = some p ∧ exec i s = .next (effect i s)) ∨
    (s.phase ≠ .init ∧ s.phase ≠ .error ∧ phaseAfter i s.phase s.dir = none ∧
      exec i s = .next (takeFault .protocolViolation s)) := by
  by_cases hi : s.phase = .init
  · exact .inl ⟨hi, exec_init hi⟩
  by_cases he : s.phase = .error
  · by_cases hc : i = .clear
    · subst hc; exact .inr (.inr (.inl ⟨he, rfl, exec_clear hi⟩))
    · exact .inr (.inl ⟨he, hc, exec_error he hc⟩)
  cases h : phaseAfter i s.phase s.dir with
  | none => exact .inr (.inr (.inr (.inr ⟨hi, he, rfl, exec_refused hi he h⟩)))
  | some p => exact .inr (.inr (.inr (.inl ⟨p, rfl, exec_admitted h⟩)))

theorem takeIllegal_init {s : State} (h : s.phase = .init) : takeIllegal s = .next s := by
  unfold takeIllegal; rw [h]

theorem takeIllegal_error {s : State} (h : s.phase = .error) : takeIllegal s = .next s.quiet := by
  unfold takeIllegal; rw [h]

theorem takeIllegal_faults {s : State} (hi : s.phase ≠ .init) (he : s.phase ≠ .error) :
    takeIllegal s = .next (takeFault .illegalCommand s) := by
  unfold takeIllegal
  split
  · exact absurd ‹_› hi
  · exact absurd ‹_› he
  · rfl

/-- What an illegal word can do (rules R49, R50, R53). -/
theorem takeIllegal_cases (s : State) :
    (s.phase = .init ∧ takeIllegal s = .next s) ∨ (s.phase = .error ∧ takeIllegal s = .next s.quiet) ∨
    (s.phase ≠ .init ∧ s.phase ≠ .error ∧ takeIllegal s = .next (takeFault .illegalCommand s)) := by
  by_cases hi : s.phase = .init
  · exact .inl ⟨hi, takeIllegal_init hi⟩
  by_cases he : s.phase = .error
  · exact .inr (.inl ⟨he, takeIllegal_error he⟩)
  · exact .inr (.inr ⟨hi, he, takeIllegal_faults hi he⟩)

/-- What a command word can do: it is held in INIT, consumed in ERROR, faults, or is a command's effect. -/
theorem takeWord_cases (w : CmdWord) (s : State) :
    (s.phase = .init ∧ takeWord w s = .next s) ∨
    (s.phase = .error ∧ takeWord w s = .next s.quiet) ∨
    (s.phase = .error ∧ takeWord w s = .next (returnToIdle s)) ∨
    (∃ i p, decode w = some i ∧ phaseAfter i s.phase s.dir = some p ∧ takeWord w s = .next (effect i s)) ∨
    (∃ code, (code = .illegalCommand ∨ code = .protocolViolation) ∧ s.phase ≠ .init ∧ s.phase ≠ .error ∧
      takeWord w s = .next (takeFault code s)) := by
  unfold takeWord
  cases hd : decode w with
  | none =>
    rcases takeIllegal_cases s with h | h | ⟨hi, he, e⟩
    · exact .inl h
    · exact .inr (.inl h)
    · exact .inr (.inr (.inr (.inr ⟨_, .inl rfl, hi, he, e⟩)))
  | some i =>
    rcases exec_cases i s with h | ⟨he, _, e⟩ | ⟨he, _, e⟩ | ⟨p, hp, e⟩ | ⟨hi, he, _, e⟩
    · exact .inl h
    · exact .inr (.inl ⟨he, e⟩)
    · exact .inr (.inr (.inl ⟨he, e⟩))
    · exact .inr (.inr (.inr (.inl ⟨i, p, rfl, hp, e⟩)))
    · exact .inr (.inr (.inr (.inr ⟨_, .inr rfl, hi, he, e⟩)))

theorem takeWord_answers (w : CmdWord) (s : State) : ∃ t, takeWord w s = .next t := by
  rcases takeWord_cases w s with ⟨_, e⟩ | ⟨_, e⟩ | ⟨_, e⟩ | ⟨_, _, _, _, e⟩ | ⟨_, _, _, _, e⟩ <;>
    exact ⟨_, e⟩

theorem takeWord_of_decode {w : CmdWord} {i : Instr} (h : decode w = some i) (s : State) : takeWord w s = exec i s := by
  unfold takeWord; rw [h]

theorem takeWord_of_illegal {w : CmdWord} (h : decode w = none) (s : State) : takeWord w s = takeIllegal s := by
  unfold takeWord; rw [h]

theorem decode_encode (i : Instr) : decode (encode i) = some i := by
  cases i with
  | nop | pad | tag | verify | clear => decide
  | load b | adbit b | encbit b | decbit b => cases b <;> decide

/-! What lies outside the engine, and no command touches it (rules R21, R30, R130). -/

/-- The input ports, the buffers, the orchestrator, the parameters and the host's moves of `t` are those of `s`. -/
structure SameSurroundings (s t : State) : Prop where
  rst : t.rst = s.rst
  cmdValid : t.cmdValid = s.cmdValid
  cmd : t.cmd = s.cmd
  key : t.key = s.key
  nonce : t.nonce = s.nonce
  tagIn : t.tagIn = s.tagIn
  mem : t.mem = s.mem
  orch : t.orch = s.orch
  cfg : t.cfg = s.cfg
  host : t.host = s.host

theorem SameSurroundings.refl (s : State) : SameSurroundings s s := by constructor <;> rfl

theorem quiet_sameSurroundings (s : State) : SameSurroundings s s.quiet := by constructor <;> rfl

theorem takeFault_sameSurroundings (code : ErrCode) (s : State) : SameSurroundings s (takeFault code s) := by
  constructor <;> rfl

theorem effect_sameSurroundings (i : Instr) (s : State) : SameSurroundings s (effect i s) := by
  cases i <;> constructor <;> rfl

theorem exec_sameSurroundings {i : Instr} {s t : State} (h : exec i s = .next t) : SameSurroundings s t := by
  rcases exec_cases i s with ⟨_, e⟩ | ⟨_, _, e⟩ | ⟨_, _, e⟩ | ⟨_, _, e⟩ | ⟨_, _, _, e⟩ <;>
    rw [e] at h <;> cases h
  · exact .refl s
  · exact quiet_sameSurroundings s
  · exact effect_sameSurroundings .clear s
  · exact effect_sameSurroundings i s
  · exact takeFault_sameSurroundings _ s

theorem takeWord_sameSurroundings {w : CmdWord} {s t : State} (h : takeWord w s = .next t) : SameSurroundings s t := by
  rcases takeWord_cases w s with ⟨_, e⟩ | ⟨_, e⟩ | ⟨_, e⟩ | ⟨i, _, _, _, e⟩ | ⟨_, _, _, _, e⟩ <;>
    rw [e] at h <;> cases h
  · exact .refl s
  · exact quiet_sameSurroundings s
  · exact effect_sameSurroundings .clear s
  · exact effect_sameSurroundings i s
  · exact takeFault_sameSurroundings _ s

end Sys2Proof.Machine
end

section
/-! PROOF. The engine's invariant is kept by every step of the engine (rules R15 to R19, R27, R140, R141, R146). -/

namespace Sys2Proof.Machine

/-- The engine's invariant speaks of the engine and the parameters only. -/
theorem EngineInv.of_engine_eq {s t : State} (h : EngineInv s) (he : t.engine = s.engine) (hc : t.cfg = s.cfg) :
    EngineInv t := by
  cases s; cases t
  simp only [State.engine, EngineView.mk.injEq] at he hc
  obtain ⟨rfl, rfl, rfl, rfl, rfl, rfl, rfl, rfl, rfl, rfl, rfl, rfl, rfl, rfl⟩ := he
  subst hc
  exact ⟨h.ctr_zero, h.err_iff, h.code_error, h.code_none, h.okv_iff, h.tagv_iff, h.ok_valid, h.wipe_iff, h.tago_zero,
    h.idle_dir, h.dout_text, h.discarded⟩

theorem discardRegs_zeroize {c : Config} (h : c.zeroize = true) (d : Datapath) : discardRegs c d = Datapath.zero := by
  simp [discardRegs, h]

theorem quiet_engineInv {s : State} (h : EngineInv s) : EngineInv s.quiet :=
  ⟨h.ctr_zero, h.err_iff, h.code_error, h.code_none, h.okv_iff, h.tagv_iff, h.ok_valid, h.wipe_iff, h.tago_zero,
    h.idle_dir, nofun, h.discarded⟩

theorem takeFault_engineInv {code : ErrCode} (hc : code = .illegalCommand ∨ code = .protocolViolation) (s : State) :
    EngineInv (takeFault code s) := by
  constructor <;> simp_all [discardRegs]

theorem returnToIdle_engineInv (s : State) : EngineInv (returnToIdle s) := by
  constructor <;> simp

theorem resetStep_engineInv (s : State) : EngineInv (resetStep s) := by
  constructor <;> simp [State.reset]

/-- The flags of a state in which no result stands and no fault is pending. -/
structure FlagsClear (s : State) : Prop where
  okv : s.okv = false
  ok : s.ok = false
  tagv : s.tagv = false
  err : s.err = false
  errcode : s.errcode = .none
  wipe : s.wipe = false
  tago : s.tago = 0

theorem EngineInv.flagsClear {s : State} (h : EngineInv s) (hd : s.phase ≠ .done) (he : s.phase ≠ .error) :
    FlagsClear s := by
  have hokv : s.okv = false := by simpa [hd] using h.okv_iff
  have htagv : s.tagv = false := by simpa [hd] using h.tagv_iff
  exact ⟨hokv, by simpa [hokv] using h.ok_valid, htagv, by simpa [he] using h.err_iff, h.code_none he,
    by simpa [he, hokv] using h.wipe_iff, h.tago_zero htagv⟩

/-- Inside a transaction clear flags and the counter are all there is to check. -/
theorem engineInv_of_flagsClear {s : State} (hp : s.phase = .init ∨ s.phase = .ad ∨ s.phase = .text ∨ s.phase = .padded)
    (hf : FlagsClear s) (hctr : s.phase ≠ .init → s.ctr = 0) (hdout : s.doutValid = true → s.phase = .text) :
    EngineInv s := by
  obtain ⟨hokv, hok, htagv, herr, hcode, hwipe, htago⟩ := hf
  have hi : s.phase ≠ .idle := by rcases hp with e | e | e | e <;> simp [e]
  have hd : s.phase ≠ .done := by rcases hp with e | e | e | e <;> simp [e]
  have he : s.phase ≠ .error := by rcases hp with e | e | e | e <;> simp [e]
  constructor <;> simp_all

theorem not_init_done_error_of_open {p : Phase} (h : p = .ad ∨ p = .text) : p ≠ .init ∧ p ≠ .done ∧ p ≠ .error := by
  rcases h with rfl | rfl <;> decide

theorem textEffect_engineInv {s : State} (h : EngineInv s) (hs : s.phase = .ad ∨ s.phase = .text) (m out : Bool) :
    EngineInv (textEffect m out s) := by
  obtain ⟨hi, hd, he⟩ := not_init_done_error_of_open hs
  obtain ⟨hokv, hok, htagv, herr, hcode, hwipe, htago⟩ := h.flagsClear hd he
  exact engineInv_of_flagsClear (.inr (.inr (.inl rfl))) ⟨hokv, hok, htagv, herr, hcode, hwipe, htago⟩
    (fun _ => h.ctr_zero hi) fun _ => rfl

theorem tagEffect_engineInv {s : State} (h : EngineInv s) (hs : s.phase = .padded) (hdir : s.dir = false) :
    EngineInv (tagEffect s) := by
  have hctr : s.ctr = 0 := h.ctr_zero (by simp [hs])
  obtain ⟨hokv, hok, _, herr, hcode, hwipe, _⟩ := h.flagsClear (by simp [hs]) (by simp [hs])
  constructor <;> simp_all [discardRegs]

theorem verifyEffect_engineInv {s : State} (h : EngineInv s) (hs : s.phase = .padded) (hdir : s.dir = true) :
    EngineInv (verifyEffect s) := by
  have hctr : s.ctr = 0 := h.ctr_zero (by simp [hs])
  obtain ⟨_, _, htagv, herr, hcode, hwipe, htago⟩ := h.flagsClear (by simp [hs]) (by simp [hs])
  constructor <;> simp_all [discardRegs]

/-- An admitted command keeps the engine's invariant. -/
theorem effect_engineInv {i : Instr} {s : State} {p : Phase} (h : EngineInv s) (hp : phaseAfter i s.phase s.dir = some p) :
    EngineInv (effect i s) := by
  cases i with
  | nop => exact quiet_engineInv h
  | clear => exact returnToIdle_engineInv s
  | load d =>
    obtain ⟨hs, _⟩ := phaseAfter_load.mp hp
    have he : s.phase ≠ .error := by rcases hs with e | e <;> simp [e]
    have herr : s.err = false := by simpa [he] using h.err_iff
    exact engineInv_of_flagsClear (.inl rfl) ⟨rfl, rfl, rfl, herr, h.code_none he, rfl, rfl⟩ (fun _ => rfl) nofun
  | adbit m =>
    obtain ⟨hs, _⟩ := phaseAfter_adbit.mp hp
    obtain ⟨hokv, hok, htagv, herr, hcode, hwipe, htago⟩ := h.flagsClear (by simp [hs]) (by simp [hs])
    exact engineInv_of_flagsClear (.inr (.inl hs)) ⟨hokv, hok, htagv, herr, hcode, hwipe, htago⟩ h.ctr_zero nofun
  | encbit b =>
    obtain ⟨hs, _, _⟩ := phaseAfter_encbit.mp hp
    exact textEffect_engineInv h hs _ _
  | decbit b =>
    obtain ⟨hs, _, _⟩ := phaseAfter_decbit.mp hp
    exact textEffect_engineInv h hs _ _
  | pad =>
    obtain ⟨hs, _⟩ := phaseAfter_pad.mp hp
    obtain ⟨hi, hd, he⟩ := not_init_done_error_of_open hs
    obtain ⟨hokv, hok, htagv, herr, hcode, hwipe, htago⟩ := h.flagsClear hd he
    exact engineInv_of_flagsClear (.inr (.inr (.inr rfl))) ⟨hokv, hok, htagv, herr, hcode, hwipe, htago⟩
      (fun _ => h.ctr_zero hi) nofun
  | tag =>
    obtain ⟨hs, hdir, _⟩ := phaseAfter_tag.mp hp
    exact tagEffect_engineInv h hs hdir
  | verify =>
    obtain ⟨hs, hdir, _⟩ := phaseAfter_verify.mp hp
    exact verifyEffect_engineInv h hs hdir

/-- Every command word keeps the engine's invariant. -/
theorem takeWord_engineInv {w : CmdWord} {s t : State} (h : EngineInv s) (e : takeWord w s = .next t) : EngineInv t := by
  rcases takeWord_cases w s with ⟨_, q⟩ | ⟨_, q⟩ | ⟨_, q⟩ | ⟨i, p, _, hp, q⟩ | ⟨code, hc, _, _, q⟩ <;>
    rw [q] at e <;> cases e
  · exact h
  · exact quiet_engineInv h
  · exact returnToIdle_engineInv s
  · exact effect_engineInv h hp
  · exact takeFault_engineInv hc s

/-- An initialisation step keeps the engine's invariant; the last one leaves `ctr` at 0 (rules R16, R97). -/
theorem initStep_engineInv {s : State} (h : EngineInv s) (hs : s.phase = .init) : EngineInv (initStep s) := by
  obtain ⟨hokv, hok, htagv, herr, hcode, hwipe, htago⟩ := h.flagsClear (by simp [hs]) (by simp [hs])
  have hflags : FlagsClear (initStep s) := ⟨hokv, hok, htagv, herr, hcode, hwipe, htago⟩
  by_cases hl : s.ctr.toNat = 511
  · have hctr : s.ctr + 1 = 0 := by bv_omega
    exact engineInv_of_flagsClear (.inr (.inl (by simp [hl]))) hflags (fun _ => hctr) nofun
  · exact engineInv_of_flagsClear (.inl (by simp [hl])) hflags (fun hn => absurd (by simp [hl]) hn) nofun

end Sys2Proof.Machine
end

section
/-! PROOF. The orchestrator: the command it presents, its move after a command, and the host's move, each said once
(rules R24, R130 to R133; log entry 5). -/

namespace Sys2Proof.Machine

/-! A length's encoding (rule R100). -/

theorem encodeDer_nonempty {n : Nat} (h : n < 2 ^ Config.lenw) : ∃ b bs, encodeDer n = some (b :: bs) := by
  by_cases hn : n < 128
  · simp [encodeDer, hn]
  · simp [encodeDer, hn, h]

theorem adStream_nonempty {ad : List Byte} (h : ad.length < 2 ^ Config.lenw) :
    ∃ stream, adStream ad = some stream ∧ 0 < 8 * stream.length := by
  obtain ⟨b, bs, e⟩ := encodeDer_nonempty h
  exact ⟨b :: bs ++ ad, by simp [adStream, e], by simp⟩

/-! The orchestrator's command, one equation for each stage. -/

theorem orchCommand_adStream {s : State} {stream : List Byte} (h : s.orch.stage = .adStream)
    (hs : adStream s.mem.ad = some stream) (hp : s.orch.pos < 8 * stream.length) : ∃ m, orchCommand s = .ok (.adbit m) := by
  obtain ⟨m, hm⟩ := bufBit_msgAddr (o := s.cfg.msgBitOrder) hp
  exact ⟨m, by unfold orchCommand; simp [h, hs, hm]⟩

theorem orchCommand_text {s : State} (h : s.orch.stage = .text) (hp : s.orch.pos < 8 * s.mem.txtIn.length) :
    ∃ b, orchCommand s = .ok (if s.orch.decrypt then .decbit b else .encbit b) := by
  obtain ⟨b, hb⟩ := bufBit_msgAddr (o := s.cfg.msgBitOrder) hp
  exact ⟨b, by unfold orchCommand; simp [h, hb]⟩

theorem orchCommand_pad {s : State} (h : s.orch.stage = .pad) : orchCommand s = .ok .pad := by
  unfold orchCommand; rw [h]

theorem orchCommand_finish {s : State} (h : s.orch.stage = .finish) :
    orchCommand s = .ok (if s.orch.decrypt then .verify else .tag) := by
  unfold orchCommand; rw [h]

/-- The orchestrator's command depends on its own state, its buffers and the parameters. -/
theorem orchCommand_congr {s t : State} (horch : t.orch = s.orch) (hmem : t.mem = s.mem) (hcfg : t.cfg = s.cfg) :
    orchCommand t = orchCommand s := by
  unfold orchCommand; rw [horch, hmem, hcfg]

/-! The orchestrator's move after a command, one equation for each stage; the text stage is `advanceOrchestrator_text`. -/

theorem advanceOrchestrator_error {t : State} (h : t.phase = .error) :
    advanceOrchestrator t = .next (t.toStage .idle) := by
  simp [advanceOrchestrator, h]

theorem advanceOrchestrator_idle {t : State} (hp : t.phase ≠ .error) (h : t.orch.stage = .idle) :
    advanceOrchestrator t = .next t := by
  simp [advanceOrchestrator, hp, h]

theorem advanceOrchestrator_load {t : State} (hp : t.phase ≠ .error) (h : t.orch.stage = .load) :
    advanceOrchestrator t = .next (t.toStage .adStream) := by
  simp [advanceOrchestrator, hp, h]

theorem advanceOrchestrator_adStream {t : State} {stream : List Byte} (hp : t.phase ≠ .error)
    (h : t.orch.stage = .adStream) (hs : adStream t.mem.ad = some stream) :
    advanceOrchestrator t =
      .next (if t.orch.pos + 1 < 8 * stream.length then { t with orch := { t.orch with pos := t.orch.pos + 1 } }
        else t.toStage (if t.mem.txtIn.isEmpty then .pad else .text)) := by
  simp only [advanceOrchestrator, hp, h, hs, if_false]
  split
  · rfl
  · split <;> rfl

theorem advanceOrchestrator_pad {t : State} (hp : t.phase ≠ .error) (h : t.orch.stage = .pad) :
    advanceOrchestrator t = .next (t.toStage .finish) := by
  simp [advanceOrchestrator, hp, h]

theorem advanceOrchestrator_finish {t : State} (hp : t.phase ≠ .error) (h : t.orch.stage = .finish) :
    advanceOrchestrator t = .next (t.toStage .idle) := by
  simp [advanceOrchestrator, hp, h]

/-- The orchestrator's move writes its own state and `TXTOUT`, nothing else. -/
theorem advanceOrchestrator_frame {t u : State} (h : advanceOrchestrator t = .next u) :
    ∃ o out, u = { t with orch := o, mem := { t.mem with txtOut := out } } := by
  unfold advanceOrchestrator at h
  split at h
  · cases h; exact ⟨_, _, rfl⟩
  · split at h
    · cases h; exact ⟨_, _, rfl⟩
    · cases h; exact ⟨_, _, rfl⟩
    · split at h
      · cases h
      · split at h
        · cases h; exact ⟨_, _, rfl⟩
        · split at h <;> (cases h; exact ⟨_, _, rfl⟩)
    · simp only at h
      split at h
      · cases h; exact ⟨_, _, rfl⟩
      · split at h
        · cases h
        · split at h <;> (cases h; exact ⟨_, _, rfl⟩)
    · cases h; exact ⟨_, _, rfl⟩
    · cases h; exact ⟨_, _, rfl⟩

theorem release_frame (s t : State) : ∃ out, release s t = { t with mem := { t.mem with txtOut := out } } := by
  rcases release_cases s t with ⟨_, _, e⟩ | ⟨_, e⟩ <;> rw [e] <;> exact ⟨_, rfl⟩

@[simp] theorem release_cmdValid (s t : State) : (release s t).cmdValid = t.cmdValid := by
  obtain ⟨out, e⟩ := release_frame s t; rw [e]

@[simp] theorem release_host (s t : State) : (release s t).host = t.host := by
  obtain ⟨out, e⟩ := release_frame s t; rw [e]

@[simp] theorem release_cfg (s t : State) : (release s t).cfg = t.cfg := by
  obtain ⟨out, e⟩ := release_frame s t; rw [e]

theorem release_driven {s t : State} (h : t.driven) : (release s t).driven := by
  unfold State.driven
  rw [release_orch, release_cmdValid]; exact h

/-- An orchestrator at rest stays at rest, whatever the command did. -/
theorem advanceOrchestrator_atRest {t : State} (h : t.orch.stage = .idle) :
    ∃ o, advanceOrchestrator t = .next { t with orch := o } ∧ o.stage = .idle ∧ o.knowsM = t.orch.knowsM := by
  by_cases hp : t.phase = .error
  · exact ⟨_, advanceOrchestrator_error hp, rfl, rfl⟩
  · exact ⟨t.orch, advanceOrchestrator_idle hp h, h, rfl⟩

/-! The host's move. -/

theorem portFree_iff (s : State) : s.portFree = true ↔ s.orch.stage = .idle ∧ s.cmdValid = false := by
  simp [State.portFree]

theorem cmdReady_iff (s : State) : s.cmdReady = true ↔ s.phase ≠ .init := by
  simp [State.cmdReady]

/-- What the host's move can do: it starts nothing, raises `rst`, withdraws, abandons, presents a command on a free port, or
calls the orchestrator on a free port outside INIT (rules R21, R22, R130, R160). -/
theorem hostMove_cases (s : State) :
    ((∃ moves, hostMove s = { s with host := moves }) ∨ ∃ moves, hostMove s = { s with host := moves, rst := true }) ∨
    (s.host.head? = some .withdraw ∧
      ∃ moves, hostMove s = { s with host := moves, cmdValid := s.cmdValid && s.orch.stage != .idle }) ∨
    (s.host.head? = some .abandon ∧
      ∃ moves, hostMove s = { s.toStage .idle with host := moves, cmdValid := true, cmd := encode .clear }) ∨
    (s.portFree = true ∧ ∃ moves word key nonce tag, hostMove s =
      { s with
        host := moves, cmdValid := true, cmd := word, key := if s.cmdReady then key else s.key, nonce := nonce
        tagIn := tag }) ∨
    (s.portFree = true ∧ s.cmdReady = true ∧
      ∃ moves decrypt key nonce tag ad text,
        hostMove s = startCall decrypt key nonce tag ad text { s with host := moves }) := by
  unfold hostMove
  split
  · exact .inl (.inl ⟨_, rfl⟩)
  · exact .inl (.inl ⟨_, rfl⟩)
  · exact .inl (.inr ⟨_, rfl⟩)
  · rename_i e; exact .inr (.inl ⟨by simp [e], _, rfl⟩)
  · rename_i e; exact .inr (.inr (.inl ⟨by simp [e], _, rfl⟩))
  · split
    · exact .inr (.inr (.inr (.inl ⟨‹_›, _, _, _, _, _, rfl⟩)))
    · exact .inl (.inl ⟨_, rfl⟩)
  · split
    · rename_i hf
      rw [Bool.and_eq_true] at hf
      exact .inr (.inr (.inr (.inr ⟨hf.1, hf.2, _, _, _, _, _, _, _, rfl⟩)))
    · exact .inl (.inl ⟨_, rfl⟩)
  · split
    · rename_i hf
      rw [Bool.and_eq_true] at hf
      exact .inr (.inr (.inr (.inr ⟨hf.1, hf.2, _, _, _, _, _, _, _, rfl⟩)))
    · exact .inl (.inl ⟨_, rfl⟩)

/-- A command that is pending stays pending unless the host withdraws it or abandons the transaction (rule R21). -/
theorem hostMove_pending {s : State} (hv : s.cmdValid = true) (hw : s.host.head? ≠ some .withdraw)
    (ha : s.host.head? ≠ some .abandon) : (hostMove s).cmdValid = true ∧ (hostMove s).cmd = s.cmd := by
  have busy : s.portFree ≠ true := by simp [portFree_iff, hv]
  rcases hostMove_cases s with (⟨_, e⟩ | ⟨_, e⟩) | ⟨h, _⟩ | ⟨h, _⟩ | ⟨h, _⟩ | ⟨h, _⟩
  · rw [e]; exact ⟨hv, rfl⟩
  · rw [e]; exact ⟨hv, rfl⟩
  · exact absurd h hw
  · exact absurd h ha
  · exact absurd h busy
  · exact absurd h busy

theorem drivePorts_pending {s t : State} (hv : s.cmdValid = true) (hw : s.host.head? ≠ some .withdraw)
    (ha : s.host.head? ≠ some .abandon) (e : drivePorts s = .next t) : t.cmdValid = true ∧ t.cmd = s.cmd := by
  have h := hostMove_pending (s := { s with rst := false }) hv hw ha
  unfold drivePorts at e
  rcases presentOrchestrator_cases (hostMove { s with rst := false }) with ⟨_, q⟩ | ⟨_, hn, _⟩
  · rw [q] at e; cases e; exact h
  · rw [hn] at h; cases h.1

/-! The four kinds of step, one equation each (rules R21, R90, R160). -/

theorem step_reset {s : State} (hr : s.rst = true) : step s = drivePorts (resetStep s) := by
  simp [step, machineStep, hr]

theorem step_init {s : State} (hr : s.rst = false) (hp : s.phase = .init) : step s = drivePorts (initStep s) := by
  simp [step, machineStep, hr, hp]

theorem step_command {s : State} (hr : s.rst = false) (hp : s.phase ≠ .init) (hv : s.cmdValid = true) :
    step s = afterCommand s (takeWord s.cmd s) := by
  simp [step, machineStep, hr, hp, hv]

theorem step_waits {s : State} (hr : s.rst = false) (hp : s.phase ≠ .init) (hv : s.cmdValid = false) :
    step s = drivePorts s.quiet := by
  simp [step, machineStep, hr, hp, hv]

end Sys2Proof.Machine
end

section
/-! PROOF. The invariant of the whole machine is kept by every step, and no step stops (rules R131, R134, R162). -/

namespace Sys2Proof.Machine

/-- The orchestrator's place in its transaction, with its buffers and the port `key`: the part of `OrchInv` that does not
speak of the command port or of zeroing. -/
structure OrchPlaced (s : State) : Prop where
  key_held : s.phase = .init → s.k = s.key
  mem_wf : s.mem.wf = true
  knows_m : s.orch.stage ≠ .idle → s.orch.knowsM = true
  ad_stage : s.orch.stage = .adStream → (s.phase = .init ∨ s.phase = .ad) ∧ s.dir = s.orch.decrypt ∧
    ∃ stream, adStream s.mem.ad = some stream ∧ s.orch.pos < 8 * stream.length
  text_stage : s.orch.stage = .text → (s.phase = .ad ∨ s.phase = .text) ∧ s.dir = s.orch.decrypt ∧
    s.orch.pos < 8 * s.mem.txtIn.length
  pad_stage : s.orch.stage = .pad → (s.phase = .ad ∨ s.phase = .text) ∧ s.dir = s.orch.decrypt
  finish_stage : s.orch.stage = .finish → s.phase = .padded ∧ s.dir = s.orch.decrypt

/-- While `wipe` is 1 and M is known every byte of `TXTOUT` is 0 (rule R131). -/
def TxtOutWiped (s : State) : Prop := s.wipe = true → s.orch.knowsM = true → ∀ b ∈ s.mem.txtOut, b = 0

/-- What a running transaction has on the port, if anything, is its next command. -/
def HoldsOwnCommand (s : State) : Prop :=
  s.orch.stage ≠ .idle → s.cmdValid = true → ∀ i, orchCommand s = .ok i → s.cmd = encode i

/-- The orchestrator's invariant before the ports are driven: its next command need not be on the port yet. -/
structure OrchReady (s : State) : Prop where
  placed : OrchPlaced s
  wiped : TxtOutWiped s
  holds : HoldsOwnCommand s

theorem OrchInv.placed {s : State} (h : OrchInv s) : OrchPlaced s :=
  ⟨h.key_held, h.mem_wf, h.knows_m, h.ad_stage, h.text_stage, h.pad_stage, h.finish_stage⟩

theorem OrchInv.holds {s : State} (h : OrchInv s) : HoldsOwnCommand s := by
  intro hs _ i hi
  obtain ⟨_, j, hj, hc⟩ := h.presented hs
  rw [hj] at hi; cases hi; exact hc

theorem OrchInv.ready {s : State} (h : OrchInv s) : OrchReady s := ⟨h.placed, h.wiped, h.holds⟩

theorem OrchInv.driven {s : State} (h : OrchInv s) : s.driven := by
  by_cases hs : s.orch.stage = .idle
  · exact .inl hs
  · exact .inr (h.presented hs).1

/-- With the command on the port the orchestrator's invariant is whole. -/
theorem OrchReady.inv {s : State} (h : OrchReady s)
    (hp : s.orch.stage ≠ .idle → s.cmdValid = true ∧ ∃ i, orchCommand s = .ok i ∧ s.cmd = encode i) : OrchInv s := by
  obtain ⟨hkey, hwf, hm, had, htext, hpad, hfin⟩ := h.placed
  exact ⟨hkey, hwf, h.wiped, hm, hp, had, htext, hpad, hfin⟩

/-- A placed orchestrator always has a next command (rules R31, R100, R132). -/
theorem OrchPlaced.orchCommand_ok {s : State} (h : OrchPlaced s) : ∃ i, orchCommand s = .ok i := by
  cases hs : s.orch.stage with
  | idle => exact ⟨.nop, by unfold orchCommand; rw [hs]⟩
  | load => exact ⟨_, orchCommand_load hs⟩
  | adStream =>
    obtain ⟨_, _, stream, hstream, hpos⟩ := h.ad_stage hs
    obtain ⟨m, e⟩ := orchCommand_adStream hs hstream hpos
    exact ⟨_, e⟩
  | text =>
    obtain ⟨_, _, hpos⟩ := h.text_stage hs
    obtain ⟨b, e⟩ := orchCommand_text hs hpos
    exact ⟨_, e⟩
  | pad => exact ⟨_, orchCommand_pad hs⟩
  | finish => exact ⟨_, orchCommand_finish hs⟩

/-- The orchestrator's place depends on the phase, the direction, the key, the buffers and its own state. -/
theorem OrchPlaced.of_same {s t : State} (h : OrchPlaced s) (hp : t.phase = s.phase) (hdir : t.dir = s.dir) (hk : t.k = s.k)
    (hkey : t.key = s.key) (hmem : t.mem = s.mem) (horch : t.orch = s.orch) : OrchPlaced t := by
  obtain ⟨hheld, hwf, hm, had, htext, hpad, hfin⟩ := h
  constructor <;> simpa only [hp, hdir, hk, hkey, hmem, horch]

/-- What leaves all that alone, and puts no new word on the port, leaves the orchestrator ready. -/
theorem OrchReady.of_same {s t : State} (h : OrchReady s) (hp : t.phase = s.phase) (hdir : t.dir = s.dir) (hk : t.k = s.k)
    (hkey : t.key = s.key) (hmem : t.mem = s.mem) (horch : t.orch = s.orch) (hw : t.wipe = s.wipe) (hcfg : t.cfg = s.cfg)
    (hport : t.cmdValid = true → s.cmdValid = true ∧ t.cmd = s.cmd) : OrchReady t := by
  refine ⟨h.placed.of_same hp hdir hk hkey hmem horch, ?_, ?_⟩
  · unfold TxtOutWiped
    rw [hw, horch, hmem]; exact h.wiped
  · intro hs hv i hi
    rw [horch] at hs
    rw [orchCommand_congr horch hmem hcfg] at hi
    obtain ⟨hv', hc⟩ := hport hv
    exact hc.trans (h.holds hs hv' i hi)

/-! Driving the ports. -/

/-- At rest the orchestrator has no place to keep. -/
theorem orchPlaced_atRest {s : State} (hs : s.orch.stage = .idle) (hk : s.phase = .init → s.k = s.key)
    (hm : s.mem.wf = true) : OrchPlaced s := by
  constructor <;> simp_all

theorem holdsOwnCommand_atRest {s : State} (hs : s.orch.stage = .idle) : HoldsOwnCommand s := fun h => absurd hs h

theorem zeroBytes_all_zero {bs : List Byte} : ∀ b ∈ zeroBytes bs, b = 0 := fun _ hb => (List.mem_replicate.mp hb).2

/-- A call that reaches a free port outside INIT leaves the orchestrator ready, at its first line or at rest. -/
theorem startCall_ready {s : State} (h : OrchReady s) (hf : s.portFree = true) (hr : s.phase ≠ .init) (decrypt : Bool)
    (key nonce tag ad text : List Byte) : OrchReady (startCall decrypt key nonce tag ad text s) := by
  obtain ⟨hidle, hv⟩ := (portFree_iff s).mp hf
  have hwf : (startCall decrypt key nonce tag ad text s).mem.wf = true := startCall_keeps_wf h.placed.mem_wf
  unfold startCall at hwf ⊢
  split
  · rename_i hl
    rw [if_pos hl] at hwf
    refine ⟨⟨fun hi => absurd hi hr, hwf, fun _ => rfl, nofun, nofun, nofun, nofun⟩, fun _ _ => zeroBytes_all_zero, ?_⟩
    intro _ hn
    rw [hv] at hn; cases hn
  · exact ⟨orchPlaced_atRest hidle h.placed.key_held h.placed.mem_wf, h.wiped, holdsOwnCommand_atRest hidle⟩

/-- Whatever the host does, the orchestrator stays ready. -/
theorem hostMove_ready {s : State} (h : OrchReady s) : OrchReady (hostMove s) := by
  rcases hostMove_cases s with (⟨moves, e⟩ | ⟨moves, e⟩) | ⟨_, moves, e⟩ | ⟨_, moves, e⟩ |
    ⟨hf, moves, word, key, _, _, e⟩ | ⟨hf, hr, moves, _, _, _, _, _, _, e⟩ <;> rw [e]
  · exact h.of_same rfl rfl rfl rfl rfl rfl rfl rfl fun hv => ⟨hv, rfl⟩
  · exact h.of_same rfl rfl rfl rfl rfl rfl rfl rfl fun hv => ⟨hv, rfl⟩
  · exact h.of_same rfl rfl rfl rfl rfl rfl rfl rfl fun hv => ⟨(Bool.and_eq_true_iff.mp hv).1, rfl⟩
  · exact ⟨orchPlaced_atRest rfl h.placed.key_held h.placed.mem_wf, h.wiped, holdsOwnCommand_atRest rfl⟩
  · have hidle := ((portFree_iff s).mp hf).1
    refine ⟨orchPlaced_atRest hidle ?_ h.placed.mem_wf, h.wiped, holdsOwnCommand_atRest hidle⟩
    intro hi
    have hn : s.cmdReady = false := by simp [State.cmdReady, show s.phase = .init from hi]
    simpa [hn] using h.placed.key_held hi
  · have hready : OrchReady { s with host := moves } :=
      h.of_same rfl rfl rfl rfl rfl rfl rfl rfl fun hv => ⟨hv, rfl⟩
    exact startCall_ready hready hf ((cmdReady_iff s).mp hr) _ _ _ _ _ _

/-- A ready orchestrator puts its next command on the port, so driving the ports answers a state with the whole of its
invariant. -/
theorem drivePorts_ready {s : State} (h : OrchReady s) : ∃ t, drivePorts s = .next t ∧ OrchInv t := by
  have hr : OrchReady (hostMove { s with rst := false }) :=
    hostMove_ready (h.of_same rfl rfl rfl rfl rfl rfl rfl rfl fun hv => ⟨hv, rfl⟩)
  unfold drivePorts
  generalize hostMove { s with rst := false } = u at hr
  obtain ⟨i, hi⟩ := hr.placed.orchCommand_ok
  rcases presentOrchestrator_cases u with ⟨hp, e⟩ | ⟨hs, _, ⟨j, hj, e⟩ | ⟨r, hj, _⟩⟩
  · refine ⟨u, e, hr.inv fun hs => ?_⟩
    have hv : u.cmdValid = true := hp.resolve_left hs
    exact ⟨hv, i, hi, hr.holds hs hv i hi⟩
  · have hready : OrchReady { u with cmdValid := true, cmd := encode j } := by
      refine ⟨hr.placed.of_same rfl rfl rfl rfl rfl rfl, hr.wiped, fun _ _ i hi => ?_⟩
      have he : (Except.ok j : Except Refusal Instr) = .ok i := hj.symm.trans hi
      cases he; rfl
    exact ⟨_, e, hready.inv fun _ => ⟨rfl, j, hj, rfl⟩⟩
  · rw [hi] at hj; cases hj

/-! Taking the orchestrator's own command. -/

/-- The phase the engine is left in by the command of a stage; LOAD is apart, since a call is not checked against the phase
(rules R91, R104, R105, R120, R121, R124, R125). -/
def Stage.phaseLeft : Stage → Phase
  | .idle => .idle
  | .load => .init
  | .adStream => .ad
  | .text => .text
  | .pad => .padded
  | .finish => .done

/-- Past LOAD the orchestrator's command is always admitted (rules R52, R132, R133). -/
theorem OrchPlaced.command_admitted {s : State} {i : Instr} (h : OrchPlaced s) (hp : s.phase ≠ .init)
    (hs : s.orch.stage ≠ .idle) (hl : s.orch.stage ≠ .load) (hi : orchCommand s = .ok i) :
    phaseAfter i s.phase s.dir = some s.orch.stage.phaseLeft := by
  cases hst : s.orch.stage with
  | idle => exact absurd hst hs
  | load => exact absurd hst hl
  | adStream =>
    obtain ⟨hph, _, stream, hstream, hpos⟩ := h.ad_stage hst
    obtain ⟨m, e⟩ := orchCommand_adStream hst hstream hpos
    rw [hi] at e; cases e
    exact phaseAfter_adbit.mpr ⟨hph.resolve_left hp, rfl⟩
  | text =>
    obtain ⟨hph, hdir, hpos⟩ := h.text_stage hst
    obtain ⟨b, e⟩ := orchCommand_text hst hpos
    rw [hi] at e; cases e
    cases hd : s.orch.decrypt
    · exact phaseAfter_encbit.mpr ⟨hph, hdir.trans hd, rfl⟩
    · exact phaseAfter_decbit.mpr ⟨hph, hdir.trans hd, rfl⟩
  | pad =>
    rw [orchCommand_pad hst] at hi; cases hi
    exact phaseAfter_pad.mpr ⟨(h.pad_stage hst).1, rfl⟩
  | finish =>
    obtain ⟨hph, hdir⟩ := h.finish_stage hst
    rw [orchCommand_finish hst] at hi; cases hi
    cases hd : s.orch.decrypt
    · exact phaseAfter_tag.mpr ⟨hph, hdir.trans hd, rfl⟩
    · exact phaseAfter_verify.mpr ⟨hph, hdir.trans hd, rfl⟩

theorem effect_dir {i : Instr} {s : State} (hl : ∀ d, i ≠ .load d) (hc : i ≠ .clear) : (effect i s).dir = s.dir := by
  cases i with
  | load d => exact absurd rfl (hl d)
  | clear => exact absurd rfl hc
  | _ => rfl

/-- The command of a stage past LOAD is neither LOAD nor CLEAR. -/
theorem orchCommand_keeps_transaction {s : State} {i : Instr} (hl : s.orch.stage ≠ .load) (hi : orchCommand s = .ok i) :
    (∀ d, i ≠ .load d) ∧ i ≠ .clear := by
  unfold orchCommand at hi
  split at hi
  · cases hi; exact ⟨nofun, nofun⟩
  · exact absurd ‹_› hl
  · split at hi
    · cases hi
    · split at hi <;> cases hi
      exact ⟨nofun, nofun⟩
  · split at hi <;> cases hi
    cases s.orch.decrypt <;> exact ⟨nofun, nofun⟩
  · cases hi; exact ⟨nofun, nofun⟩
  · cases hi
    cases s.orch.decrypt <;> exact ⟨nofun, nofun⟩

/-- The word on a running transaction's port is the orchestrator's command. -/
theorem OrchInv.takeWord_eq_exec {s : State} (h : OrchInv s) (hs : s.orch.stage ≠ .idle) :
    ∃ i, orchCommand s = .ok i ∧ takeWord s.cmd s = exec i s := by
  obtain ⟨_, i, hi, hc⟩ := h.presented hs
  exact ⟨i, hi, takeWord_of_decode (by rw [hc, decode_encode]) s⟩

/-- Past LOAD the orchestrator's command leaves the phase of its stage, and the direction (rules R52, R132, R133). -/
theorem OrchInv.takeWord_own {s t : State} (h : OrchInv s) (hp : s.phase ≠ .init) (hs : s.orch.stage ≠ .idle)
    (hl : s.orch.stage ≠ .load) (e : takeWord s.cmd s = .next t) : t.phase = s.orch.stage.phaseLeft ∧ t.dir = s.dir := by
  obtain ⟨i, hi, he⟩ := h.takeWord_eq_exec hs
  have hadm := h.placed.command_admitted hp hs hl hi
  obtain ⟨hnl, hnc⟩ := orchCommand_keeps_transaction hl hi
  rw [he, exec_admitted hadm] at e; cases e
  exact ⟨effect_phase hadm, effect_dir hnl hnc⟩

/-- The orchestrator's LOAD starts its transaction, or the engine is left in ERROR (rules R91, R52, R53). -/
theorem OrchInv.takeWord_load {s t : State} (h : OrchInv s) (hp : s.phase ≠ .init) (hs : s.orch.stage = .load)
    (e : takeWord s.cmd s = .next t) : t.phase = .error ∨ (t.phase = .init ∧ t.dir = s.orch.decrypt) := by
  obtain ⟨i, hi, he⟩ := h.takeWord_eq_exec (by simp [hs])
  rw [orchCommand_load hs] at hi; cases hi
  rw [he] at e
  rcases exec_cases (.load s.orch.decrypt) s with ⟨hin, _⟩ | ⟨herr, _, q⟩ | ⟨_, hc, _⟩ | ⟨_, _, q⟩ | ⟨_, _, _, q⟩
  · exact absurd hin hp
  · rw [q] at e; cases e; exact .inl herr
  · cases hc
  · rw [q] at e; cases e; exact .inr ⟨rfl, rfl⟩
  · rw [q] at e; cases e; exact .inl rfl

/-- INIT is entered only by LOAD (rule R52). -/
theorem load_of_phaseAfter_init {i : Instr} {p : Phase} {dir : Bool} (h : phaseAfter i p dir = some .init) :
    ∃ d, i = .load d := by
  cases i with
  | load d => exact ⟨d, rfl⟩
  | nop => obtain ⟨hp, _, e⟩ := phaseAfter_nop.mp h; exact absurd e hp
  | adbit m => cases (phaseAfter_adbit.mp h).2
  | encbit b => cases (phaseAfter_encbit.mp h).2.2
  | decbit b => cases (phaseAfter_decbit.mp h).2.2
  | pad => cases (phaseAfter_pad.mp h).2
  | tag => cases (phaseAfter_tag.mp h).2.2
  | verify => cases (phaseAfter_verify.mp h).2.2
  | clear => cases (phaseAfter_clear.mp h).2.2

/-- The command that enters INIT fixes `K` as the value of the port `key` (rules R22, R91). -/
theorem takeWord_key_held {w : CmdWord} {s t : State} (hp : s.phase ≠ .init) (e : takeWord w s = .next t)
    (ht : t.phase = .init) : t.k = t.key := by
  rcases takeWord_cases w s with ⟨h, _⟩ | ⟨h, q⟩ | ⟨_, q⟩ | ⟨i, p, _, hadm, q⟩ | ⟨_, _, _, _, q⟩
  · exact absurd h hp
  · rw [q] at e; cases e; exact absurd ht hp
  · rw [q] at e; cases e; cases ht
  · rw [q] at e; cases e
    obtain rfl : p = .init := (effect_phase hadm).symm.trans ht
    obtain ⟨d, rfl⟩ := load_of_phaseAfter_init hadm
    rfl
  · rw [q] at e; cases e; cases ht

/-! The orchestrator's move after a command. -/

/-- What a command of the orchestrator's leaves for its next move, by the stage it belongs to. -/
structure OwnCommandTaken (t : State) : Prop where
  key_held : t.phase = .init → t.k = t.key
  mem_wf : t.mem.wf = true
  knows_m : t.orch.stage ≠ .idle → t.orch.knowsM = true
  load : t.orch.stage = .load → t.phase = .error ∨ (t.phase = .init ∧ t.dir = t.orch.decrypt)
  phase : t.orch.stage ≠ .idle → t.orch.stage ≠ .load → t.phase = t.orch.stage.phaseLeft ∧ t.dir = t.orch.decrypt
  ad_pos : t.orch.stage = .adStream → ∃ stream, adStream t.mem.ad = some stream
  text_pos : t.orch.stage = .text → t.orch.pos < 8 * t.mem.txtIn.length

theorem OrchInv.ownCommandTaken {s t : State} (h : OrchInv s) (hp : s.phase ≠ .init) (e : takeWord s.cmd s = .next t) :
    OwnCommandTaken { t with cmdValid := false } := by
  have hf := takeWord_sameSurroundings e
  constructor
  case key_held => exact takeWord_key_held (t := t) hp e
  all_goals simp only [hf.orch, hf.mem]
  case mem_wf => exact h.mem_wf
  case knows_m => exact h.knows_m
  case load => exact fun hs => h.takeWord_load hp hs e
  case phase =>
    intro hs hl
    obtain ⟨hph, hdir⟩ := h.takeWord_own hp hs hl e
    refine ⟨hph, hdir.trans ?_⟩
    cases hst : s.orch.stage with
    | idle => exact absurd hst hs
    | load => exact absurd hst hl
    | adStream => exact (h.ad_stage hst).2.1
    | text => exact (h.text_stage hst).2.1
    | pad => exact (h.pad_stage hst).2
    | finish => exact (h.finish_stage hst).2
  case ad_pos =>
    intro hs
    obtain ⟨_, _, stream, hstream, _⟩ := h.ad_stage hs
    exact ⟨stream, hstream⟩
  case text_pos => exact fun hs => (h.text_stage hs).2.2

/-- After its command the orchestrator goes on to its next place, never outside a buffer (rules R31, R122, R132). -/
theorem advanceOrchestrator_placed {t : State} (h : OwnCommandTaken t) :
    ∃ u, advanceOrchestrator t = .next u ∧ OrchPlaced u := by
  obtain ⟨hkey, hwf, hm, hload, hphase, had, htext⟩ := h
  by_cases he : t.phase = .error
  · exact ⟨_, advanceOrchestrator_error he, orchPlaced_atRest rfl hkey hwf⟩
  cases hs : t.orch.stage with
  | idle => exact ⟨_, advanceOrchestrator_idle he hs, orchPlaced_atRest hs hkey hwf⟩
  | load =>
    obtain ⟨hi, hdir⟩ := (hload hs).resolve_left he
    obtain ⟨stream, hstream, hpos⟩ := adStream_nonempty ((Memory.wf_iff _).mp hwf).2
    exact ⟨_, advanceOrchestrator_load he hs, hkey, hwf, fun _ => hm (by simp [hs]),
      fun _ => ⟨.inl hi, hdir, stream, hstream, hpos⟩, nofun, nofun, nofun⟩
  | adStream =>
    obtain ⟨hp, hdir⟩ := hphase (by simp [hs]) (by simp [hs])
    have hp : t.phase = .ad := by simpa [hs, Stage.phaseLeft] using hp
    have hknows := hm (by simp [hs])
    obtain ⟨stream, hstream⟩ := had hs
    refine ⟨_, advanceOrchestrator_adStream he hs hstream, ?_⟩
    split
    · exact ⟨hkey, hwf, fun _ => hknows, fun _ => ⟨.inr hp, hdir, stream, hstream, ‹_›⟩, by simp [hs], by simp [hs],
        by simp [hs]⟩
    · cases htxt : t.mem.txtIn with
      | nil => exact ⟨hkey, hwf, fun _ => hknows, nofun, nofun, fun _ => ⟨.inl hp, hdir⟩, nofun⟩
      | cons b bs =>
        exact ⟨hkey, hwf, fun _ => hknows, nofun, fun _ => ⟨.inl hp, hdir, by simp [htxt]⟩, nofun, nofun⟩
  | text =>
    obtain ⟨hp, hdir⟩ := hphase (by simp [hs]) (by simp [hs])
    have hp : t.phase = .text := by simpa [hs, Stage.phaseLeft] using hp
    have hknows := hm (by simp [hs])
    have hpos := htext hs
    have hlen := ((Memory.wf_iff _).mp hwf).1
    rcases advanceOrchestrator_text he hs with ⟨h8, e⟩ | ⟨_, u, out, e, _, _, _, _, _, hnext⟩ | ⟨h8, hout, _⟩
    · have hpos' : t.orch.pos + 1 < 8 * t.mem.txtIn.length := by omega
      exact ⟨_, e, hkey, hwf, fun _ => hknows, by simp [hs], fun _ => ⟨.inr hp, hdir, hpos'⟩, by simp [hs], by simp [hs]⟩
    · have hwf' := advanceOrchestrator_keeps_wf hwf e
      obtain ⟨o, out, rfl⟩ := advanceOrchestrator_frame e
      refine ⟨_, e, ?_⟩
      rcases hnext with ⟨hlt, ho⟩ | ⟨_, ho⟩ <;> obtain rfl : o = _ := ho
      · exact ⟨hkey, hwf', fun _ => hknows, by simp [hs], fun _ => ⟨.inr hp, hdir, hlt⟩, by simp [hs], by simp [hs]⟩
      · exact ⟨hkey, hwf', fun _ => hknows, nofun, nofun, fun _ => ⟨.inr hp, hdir⟩, nofun⟩
    · omega
  | pad =>
    obtain ⟨hp, hdir⟩ := hphase (by simp [hs]) (by simp [hs])
    have hp : t.phase = .padded := by simpa [hs, Stage.phaseLeft] using hp
    exact ⟨_, advanceOrchestrator_pad he hs, hkey, hwf, fun _ => hm (by simp [hs]), nofun, nofun, nofun,
      fun _ => ⟨hp, hdir⟩⟩
  | finish => exact ⟨_, advanceOrchestrator_finish he hs, orchPlaced_atRest rfl hkey hwf⟩

/-! The release rule and the whole step. -/

theorem release_placed {s u : State} (h : OrchPlaced u) : OrchPlaced (release s u) := by
  have hwf := release_keeps_wf (s := s) h.mem_wf
  obtain ⟨out, e⟩ := release_frame s u
  rw [e] at hwf ⊢
  obtain ⟨hkey, _, hm, had, htext, hpad, hfin⟩ := h
  exact ⟨hkey, hwf, hm, had, htext, hpad, hfin⟩

/-- The release rule zeroes `TXTOUT` whenever `wipe` is 1 and M is known (rule R131). -/
theorem release_wiped (s u : State) : TxtOutWiped (release s u) := by
  rcases release_cases s u with ⟨_, _, e⟩ | ⟨hn, e⟩ <;> rw [e]
  · exact fun _ _ => zeroBytes_all_zero
  · intro hw hm
    rcases hn with hn | hn
    · rw [hm] at hn; cases hn
    · simp [mustZero, hw] at hn

/-- What follows a command answers a state: the engine as the command left it, and the orchestrator's invariant. -/
theorem afterCommand_ready {s t : State} (h : OrchInv s) (hp : s.phase ≠ .init) (e : takeWord s.cmd s = .next t) :
    ∃ u, afterCommand s (.next t) = .next u ∧ OrchInv u ∧ u.engine = t.engine ∧ u.cfg = t.cfg := by
  obtain ⟨u, eu, hu⟩ := advanceOrchestrator_placed (h.ownCommandTaken hp e)
  obtain ⟨o, out, rfl⟩ := advanceOrchestrator_frame eu
  have hready : OrchReady (release s { t with cmdValid := false, orch := o, mem := { t.mem with txtOut := out } }) :=
    ⟨release_placed hu, release_wiped s _, fun _ hn => nomatch (release_cmdValid s _).symm.trans hn⟩
  obtain ⟨v, ev, hv⟩ := drivePorts_ready hready
  obtain ⟨heng, hcfg⟩ := drivePorts_engine ev
  refine ⟨v, ?_, hv, heng.trans (release_engine s _), hcfg.trans (release_cfg s _)⟩
  simp only [afterCommand, andThen, eu, ev]

theorem initStep_ready {s : State} (h : OrchInv s) (hp : s.phase = .init) : OrchReady (initStep s) := by
  have hph : (initStep s).phase = .init ∨ (initStep s).phase = .ad := by rw [initStep_phase]; split <;> simp
  refine ⟨⟨fun _ => h.key_held hp, h.mem_wf, h.knows_m, fun hs => ⟨hph, (h.ad_stage hs).2⟩, ?_, ?_, ?_⟩, h.wiped,
    h.holds⟩
  · intro hs; simpa [hp] using (h.text_stage hs).1
  · intro hs; simpa [hp] using (h.pad_stage hs).1
  · intro hs; simpa [hp] using (h.finish_stage hs).1

theorem quiet_ready {s : State} (h : OrchInv s) : OrchReady s.quiet :=
  h.ready.of_same rfl rfl rfl rfl rfl rfl rfl rfl fun hv => ⟨hv, rfl⟩

theorem resetStep_ready {s : State} (h : OrchInv s) : OrchReady (resetStep s) :=
  ⟨orchPlaced_atRest rfl nofun h.mem_wf, nofun, holdsOwnCommand_atRest rfl⟩

/-- Driving the ports from a ready state with a sound engine gives the invariant of the whole machine. -/
theorem drivePorts_inv {s : State} (he : EngineInv s) (ho : OrchReady s) :
    ∃ t, drivePorts s = .next t ∧ Inv t ∧ t.cfg = s.cfg := by
  obtain ⟨t, e, ht⟩ := drivePorts_ready ho
  obtain ⟨heng, hcfg⟩ := drivePorts_engine e
  exact ⟨t, e, ⟨he.of_engine_eq heng hcfg, ht⟩, hcfg⟩

/-- Settles O56, one case for each kind of step: the engine's part by its own invariant, the orchestrator's by its place in
the transaction. -/
theorem everyStepKeepsTheInvariantAndNeverStops : Obligations.EveryStepKeepsTheInvariantAndNeverStops := by
  unfold Obligations.EveryStepKeepsTheInvariantAndNeverStops
  intro s h
  rcases step_cases s with ⟨_, e⟩ | ⟨_, hp, e⟩ | ⟨_, hp, _, e⟩ | ⟨_, _, _, e⟩ <;> rw [e]
  · exact drivePorts_inv (resetStep_engineInv s) (resetStep_ready h.orch)
  · exact drivePorts_inv (initStep_engineInv h.engine hp) (initStep_ready h.orch hp)
  · obtain ⟨t, et⟩ := takeWord_answers s.cmd s
    obtain ⟨u, eu, hu, heng, hcfg⟩ := afterCommand_ready h.orch hp et
    rw [et]
    exact ⟨u, eu, ⟨(takeWord_engineInv h.engine et).of_engine_eq heng hcfg, hu⟩,
      hcfg.trans (takeWord_sameSurroundings et).cfg⟩
  · exact drivePorts_inv (quiet_engineInv h.engine) (quiet_ready h.orch)

/-- Settles O55: at reset the engine is in IDLE with clear flags and the orchestrator at rest. -/
theorem resetMeetsTheInvariant : Obligations.ResetMeetsTheInvariant := by
  unfold Obligations.ResetMeetsTheInvariant
  have hengine : EngineInv State.reset := resetStep_engineInv State.reset
  have hready : OrchReady State.reset :=
    ⟨orchPlaced_atRest rfl nofun reset_memory_wf, nofun, holdsOwnCommand_atRest rfl⟩
  exact ⟨hengine, hready.inv (absurd rfl)⟩

end Sys2Proof.Machine
end

section
/-! PROOF. The initialiser bit by bit: what each of its 512 steps writes and depends on (rules R29, R65, R92 to R99). -/

namespace Sys2Proof.Machine

/-- `set_bit` writes its bit and leaves every other (rule R65). -/
theorem setBit_getLsbD {n : Nat} (b : BitVec n) {i j : Nat} (v : Bool) (hj : j < n) :
    (setBit b i v).getLsbD j = if j = i then v else b.getLsbD j := by
  unfold setBit
  rcases Nat.lt_trichotomy j i with h | rfl | h
  · simp [hj, h, Nat.ne_of_lt h]
  · simp [hj]
  · have : j - i ≠ 0 := by omega
    simp [hj, Nat.ne_of_gt h, this]

/-! One step. -/

theorem clock_congr (c : Config) {d e : Datapath} (hl : d.lfsr = e.lfsr) (hn : d.nfsr = e.nfsr) : clock c d = clock c e := by
  unfold clock; rw [hl, hn]

/-- The feedback registers after a step depend on the feedback registers before it only. -/
theorem initDatapathStep_registers_congr (c : Config) (k : Reg128) (t : Nat) {d e : Datapath} (hl : d.lfsr = e.lfsr)
    (hn : d.nfsr = e.nfsr) : (initDatapathStep c k t d).lfsr = (initDatapathStep c k t e).lfsr ∧
      (initDatapathStep c k t d).nfsr = (initDatapathStep c k t e).nfsr := by
  have hc := clock_congr c hl hn
  unfold initDatapathStep initStepA initStepB initStepC initStepD
  rw [hc]
  split
  · simp [update, hl, hn]
  split
  · simp [update, hl, hn]
  split <;> simp [update, hl, hn]

/-- Step `t` writes bit `t - 384` of ACC in sub-phase C, and no other bit of ACC (rules R93 to R96). -/
theorem initDatapathStep_acc (c : Config) (k : Reg128) (t : Nat) (d : Datapath) {i : Nat} (hi : i < 64) :
    (initDatapathStep c k t d).acc.getLsbD i = if t = 384 + i then (clock c d).y else d.acc.getLsbD i := by
  unfold initDatapathStep
  split
  · rw [if_neg (by omega)]; rfl
  split
  · rw [if_neg (by omega)]; rfl
  split
  · refine (setBit_getLsbD d.acc _ hi).trans ?_
    have : i = t - 384 ↔ t = 384 + i := by omega
    simp only [this]
  · rw [if_neg (by omega)]; rfl

/-- Step `t` writes bit `t - 448` of AUTH in sub-phase D, and no other bit of AUTH (rules R93 to R96). -/
theorem initDatapathStep_auth (c : Config) (k : Reg128) (t : Nat) (d : Datapath) {i : Nat} (hi : i < 64) :
    (initDatapathStep c k t d).auth.getLsbD i = if t = 448 + i then (clock c d).y else d.auth.getLsbD i := by
  unfold initDatapathStep
  split
  · rw [if_neg (by omega)]; rfl
  split
  · rw [if_neg (by omega)]; rfl
  split
  · rw [if_neg (by omega)]; rfl
  · refine (setBit_getLsbD d.auth _ hi).trans ?_
    have : i = t - 448 ↔ t = 448 + i := by omega
    simp only [this]

/-- A step keeps two register files alike in what a later output can depend on, the bit it writes included (rule R29). -/
theorem initDatapathStep_sameLiveData (c : Config) (k : Reg128) {t : Nat} {d e : Datapath} (h : sameLiveData .init t d e) :
    sameLiveData .init (t + 1) (initDatapathStep c k t d) (initDatapathStep c k t e) := by
  obtain ⟨hl, hn, hacc, hauth⟩ := h
  obtain ⟨hl', hn'⟩ := initDatapathStep_registers_congr c k t hl hn
  refine ⟨hl', hn', fun i hi hlt => ?_, fun i hi hlt => ?_⟩
  · rw [initDatapathStep_acc c k t d hi, initDatapathStep_acc c k t e hi, clock_congr c hl hn]
    split
    · rfl
    · exact hacc i hi (by omega)
  · rw [initDatapathStep_auth c k t d hi, initDatapathStep_auth c k t e hi, clock_congr c hl hn]
    split
    · rfl
    · exact hauth i hi (by omega)

/-- After step 511 every bit of all four registers is live (rule R99). -/
theorem eq_of_sameLiveData_init {d e : Datapath} (h : sameLiveData .init 512 d e) : d = e := by
  obtain ⟨hl, hn, hacc, hauth⟩ := h
  obtain ⟨l, n, a, u⟩ := d
  obtain ⟨l', n', a', u'⟩ := e
  obtain rfl : l = l' := hl
  obtain rfl : n = n' := hn
  obtain rfl : a = a' := BitVec.eq_of_getLsbD_eq fun i hi => hacc i hi (by omega)
  obtain rfl : u = u' := BitVec.eq_of_getLsbD_eq fun i hi => hauth i hi (by omega)
  rfl

/-! Many steps. -/

theorem initDatapathSteps_succ (c : Config) (k : Reg128) (n t : Nat) (d : Datapath) :
    initDatapathSteps c k (n + 1) t d = initDatapathStep c k (t + n) (initDatapathSteps c k n t d) := by
  induction n generalizing t d with
  | zero => rfl
  | succ n ih =>
    calc initDatapathSteps c k (n + 2) t d
      _ = initDatapathSteps c k (n + 1) (t + 1) (initDatapathStep c k t d) := rfl
      _ = initDatapathStep c k (t + 1 + n) (initDatapathSteps c k n (t + 1) (initDatapathStep c k t d)) := ih ..
      _ = initDatapathStep c k (t + (n + 1)) (initDatapathSteps c k (n + 1) t d) := by rw [Nat.add_right_comm]; rfl

theorem initDatapathSteps_sameLiveData (c : Config) (k : Reg128) {t : Nat} {d e : Datapath} (n : Nat)
    (h : sameLiveData .init t d e) :
    sameLiveData .init (t + n) (initDatapathSteps c k n t d) (initDatapathSteps c k n t e) := by
  induction n with
  | zero => exact h
  | succ n ih =>
    rw [initDatapathSteps_succ, initDatapathSteps_succ]
    exact initDatapathStep_sameLiveData c k ih

/-- A bit of ACC holds the keystream bit of its step from that step on. -/
theorem initDatapathSteps_acc (c : Config) (k : Reg128) (d : Datapath) {i n : Nat} (hi : i < 64) (hn : 384 + i < n) :
    (initDatapathSteps c k n 0 d).acc.getLsbD i = (clock c (initDatapathSteps c k (384 + i) 0 d)).y := by
  induction n, hn using Nat.le_induction with
  | base => rw [initDatapathSteps_succ, initDatapathStep_acc c k _ _ hi, if_pos (Nat.zero_add _)]
  | succ n hn ih => rw [initDatapathSteps_succ, initDatapathStep_acc c k _ _ hi, if_neg (by omega), ih]

/-- A bit of AUTH holds the keystream bit of its step from that step on. -/
theorem initDatapathSteps_auth (c : Config) (k : Reg128) (d : Datapath) {i n : Nat} (hi : i < 64) (hn : 448 + i < n) :
    (initDatapathSteps c k n 0 d).auth.getLsbD i = (clock c (initDatapathSteps c k (448 + i) 0 d)).y := by
  induction n, hn using Nat.le_induction with
  | base => rw [initDatapathSteps_succ, initDatapathStep_auth c k _ _ hi, if_pos (Nat.zero_add _)]
  | succ n hn ih => rw [initDatapathSteps_succ, initDatapathStep_auth c k _ _ hi, if_neg (by omega), ih]

/-- What LOAD leaves is alike in all that the initialiser reads, whatever the registers held before (rules R29, R91). -/
theorem loadDatapath_sameLiveData (k : Reg128) (v : NonceWord) (d e : Datapath) :
    sameLiveData .init 0 (loadDatapath k v d) (loadDatapath k v e) :=
  ⟨rfl, rfl, fun _ _ h => absurd h (Nat.not_lt_zero _), fun _ _ h => absurd h (Nat.not_lt_zero _)⟩

/-- Settles O32, by induction over the steps: the live data stay alike, and each bit of ACC and AUTH is written once. -/
theorem initialisationDependsOnKeyAndNonceOnly : Obligations.InitialisationDependsOnKeyAndNonceOnly := by
  unfold Obligations.InitialisationDependsOnKeyAndNonceOnly
  intro c k v d e
  refine ⟨eq_of_sameLiveData_init (initDatapathSteps_sameLiveData c k 512 (loadDatapath_sameLiveData k v d e)), ?_⟩
  exact fun i hi => ⟨initDatapathSteps_acc c k d hi (by omega), initDatapathSteps_auth c k d hi (by omega)⟩

end Sys2Proof.Machine
end

section
/-! PROOF. `ZEROIZE` and dead datapath contents are not observable (rules R27, R28, R29): every part of a step commutes with
replacing them. -/

namespace Sys2Proof.Machine

/-- The state with another `ZEROIZE` and other registers. -/
def State.withHidden (z : Bool) (d : Datapath) (s : State) : State := { s with cfg := { s.cfg with zeroize := z }, dp := d }

/-- An outcome with its next state changed. -/
def mapNext (f : State → State) : Result → Result
  | .next s => .next (f s)
  | .fault q => .fault q
  | .refused q => .refused q

theorem sameAtPorts_withHidden {s : State} {d : Datapath} (z : Bool) (h : sameLiveData s.phase s.ctr.toNat s.dp d) :
    sameAtPorts s (s.withHidden z d) := ⟨z, d, rfl, h⟩

theorem sameOutcome_mapNext (r : Result) {z : Bool} {d : Datapath}
    (h : ∀ t, r = .next t → sameLiveData t.phase t.ctr.toNat t.dp d) :
    sameOutcome r (mapNext (State.withHidden z d) r) := by
  cases r with
  | next t => exact sameAtPorts_withHidden z (h t rfl)
  | fault q => exact nomatch q
  | refused q => rfl

/-! The orchestrator and the host read neither. -/

theorem startCall_withHidden (decrypt : Bool) (key nonce tag ad text : List Byte) (z : Bool) (d : Datapath) (s : State) :
    startCall decrypt key nonce tag ad text (s.withHidden z d) =
      (startCall decrypt key nonce tag ad text s).withHidden z d := by
  unfold startCall; split <;> rfl

/-- A choice that does not depend on what is replaced. -/
theorem withHidden_ite {p : Prop} [Decidable p] (z : Bool) (d : Datapath) (s t : State) :
    (if p then s else t).withHidden z d = if p then s.withHidden z d else t.withHidden z d :=
  apply_ite (State.withHidden z d) p s t

theorem hostMove_withHidden (z : Bool) (d : Datapath) (s : State) :
    hostMove (s.withHidden z d) = (hostMove s).withHidden z d := by
  unfold hostMove
  rw [show (s.withHidden z d).host = s.host from rfl]
  split
  -- a raw command and the two calls wait or act, which the port alone decides
  case h_6 => rw [withHidden_ite]; rfl
  case h_7 => rw [withHidden_ite, ← startCall_withHidden]; rfl
  case h_8 => rw [withHidden_ite, ← startCall_withHidden]; rfl
  all_goals rfl

theorem mapNext_ite {p : Prop} [Decidable p] (f : State → State) (r q : Result) :
    mapNext f (if p then r else q) = if p then mapNext f r else mapNext f q := apply_ite (mapNext f) p r q

theorem presentOrchestrator_withHidden (z : Bool) (d : Datapath) (s : State) :
    presentOrchestrator (s.withHidden z d) = mapNext (State.withHidden z d) (presentOrchestrator s) := by
  unfold presentOrchestrator
  rw [mapNext_ite, show orchCommand (s.withHidden z d) = orchCommand s from rfl]
  refine if_congr Iff.rfl rfl ?_
  split <;> rfl

theorem drivePorts_withHidden (z : Bool) (d : Datapath) (s : State) :
    drivePorts (s.withHidden z d) = mapNext (State.withHidden z d) (drivePorts s) := by
  unfold drivePorts
  rw [← presentOrchestrator_withHidden, ← hostMove_withHidden]; rfl

theorem advanceOrchestrator_withHidden (z : Bool) (d : Datapath) (t : State) :
    advanceOrchestrator (t.withHidden z d) = mapNext (State.withHidden z d) (advanceOrchestrator t) := by
  unfold advanceOrchestrator
  rw [mapNext_ite]
  refine if_congr Iff.rfl rfl ?_
  rw [show (t.withHidden z d).orch = t.orch from rfl, show (t.withHidden z d).mem = t.mem from rfl,
    show (t.withHidden z d).cfg.msgBitOrder = t.cfg.msgBitOrder from rfl, show (t.withHidden z d).dout = t.dout from rfl]
  split
  · rfl
  · rfl
  · split
    · rfl
    · split
      · rfl
      · split <;> rfl
  · simp only
    split
    · rfl
    · split
      · rfl
      · split <;> rfl
  · rfl
  · rfl

theorem release_withHidden (z : Bool) (d e : Datapath) (s t : State) :
    release (s.withHidden z d) (t.withHidden z e) = (release s t).withHidden z e := by
  unfold release
  rw [withHidden_ite]; rfl

theorem drivePorts_sameOutcome {s : State} {d : Datapath} (z : Bool) (h : sameLiveData s.phase s.ctr.toNat s.dp d) :
    sameOutcome (drivePorts s) (drivePorts (s.withHidden z d)) := by
  rw [drivePorts_withHidden]
  refine sameOutcome_mapNext _ fun t e => ?_
  have heng := (drivePorts_engine e).1
  rw [show t.phase = s.phase from congrArg EngineView.phase heng, show t.ctr = s.ctr from congrArg EngineView.ctr heng,
    show t.dp = s.dp from congrArg EngineView.dp heng]
  exact h

/-! The commands read the registers only where they are live. -/

theorem eq_of_sameLiveData {p : Phase} {t : Nat} {d e : Datapath} (hp : p = .ad ∨ p = .text ∨ p = .padded)
    (h : sameLiveData p t d e) : d = e := by
  rcases hp with rfl | rfl | rfl <;> exact h

theorem effect_withHidden {i : Instr} {s : State} {d : Datapath} {p : Phase} (z : Bool)
    (hp : phaseAfter i s.phase s.dir = some p) (h : sameLiveData s.phase s.ctr.toNat s.dp d) :
    ∃ e, effect i (s.withHidden z d) = (effect i s).withHidden z e ∧
      sameLiveData (effect i s).phase (effect i s).ctr.toNat (effect i s).dp e := by
  cases i with
  | nop => exact ⟨d, rfl, h⟩
  | load dir => exact ⟨_, rfl, loadDatapath_sameLiveData s.key s.nonce s.dp d⟩
  | clear => exact ⟨_, rfl, trivial⟩
  | adbit m =>
    obtain ⟨hs, _⟩ := phaseAfter_adbit.mp hp
    obtain rfl := eq_of_sameLiveData (.inl hs) h
    refine ⟨_, rfl, ?_⟩
    rw [show (effect (.adbit m) s).phase = .ad from hs]; rfl
  | encbit b =>
    obtain ⟨hs, _⟩ := phaseAfter_encbit.mp hp
    obtain rfl := eq_of_sameLiveData (hs.imp_right .inl) h
    exact ⟨_, rfl, rfl⟩
  | decbit b =>
    obtain ⟨hs, _⟩ := phaseAfter_decbit.mp hp
    obtain rfl := eq_of_sameLiveData (hs.imp_right .inl) h
    exact ⟨_, rfl, rfl⟩
  | pad =>
    obtain ⟨hs, _⟩ := phaseAfter_pad.mp hp
    obtain rfl := eq_of_sameLiveData (hs.imp_right .inl) h
    exact ⟨_, rfl, rfl⟩
  | tag =>
    obtain ⟨hs, _⟩ := phaseAfter_tag.mp hp
    obtain rfl := eq_of_sameLiveData (.inr (.inr hs)) h
    exact ⟨_, rfl, trivial⟩
  | verify =>
    obtain ⟨hs, _⟩ := phaseAfter_verify.mp hp
    obtain rfl := eq_of_sameLiveData (.inr (.inr hs)) h
    exact ⟨_, rfl, trivial⟩

theorem takeWord_withHidden {w : CmdWord} {s t : State} {d : Datapath} (z : Bool) (e : takeWord w s = .next t)
    (h : sameLiveData s.phase s.ctr.toNat s.dp d) :
    ∃ f, takeWord w (s.withHidden z d) = .next (t.withHidden z f) ∧ sameLiveData t.phase t.ctr.toNat t.dp f := by
  cases hd : decode w with
  | none =>
    rw [takeWord_of_illegal hd] at e ⊢
    rcases takeIllegal_cases s with ⟨hp, q⟩ | ⟨hp, q⟩ | ⟨hi, he, q⟩ <;> rw [q] at e <;> cases e
    · exact ⟨d, takeIllegal_init hp, h⟩
    · exact ⟨d, takeIllegal_error hp, h⟩
    · exact ⟨_, takeIllegal_faults hi he, trivial⟩
  | some i =>
    rw [takeWord_of_decode hd] at e ⊢
    rcases exec_cases i s with ⟨hp, q⟩ | ⟨hp, hi, q⟩ | ⟨hp, rfl, q⟩ | ⟨p, hp, q⟩ | ⟨hi, he, hn, q⟩ <;>
      rw [q] at e <;> cases e
    · exact ⟨d, exec_init hp, h⟩
    · exact ⟨d, exec_error hp hi, h⟩
    · exact ⟨_, exec_clear (by simp [State.withHidden, hp]), trivial⟩
    · obtain ⟨f, hf, hlive⟩ := effect_withHidden z hp h
      exact ⟨f, by rw [exec_admitted (s := s.withHidden z d) hp, hf], hlive⟩
    · exact ⟨_, exec_refused hi he hn, trivial⟩

/-- What follows a command reads neither: alike states end alike. -/
theorem afterCommand_sameOutcome {s t : State} {d f : Datapath} (z : Bool) (h : sameLiveData t.phase t.ctr.toNat t.dp f) :
    sameOutcome (afterCommand s (.next t)) (afterCommand (s.withHidden z d) (.next (t.withHidden z f))) := by
  have hadv := advanceOrchestrator_withHidden z f { t with cmdValid := false }
  simp only [afterCommand, andThen]
  rw [show { t.withHidden z f with cmdValid := false } = State.withHidden z f { t with cmdValid := false } from rfl, hadv]
  cases e : advanceOrchestrator { t with cmdValid := false } with
  | fault q => exact nomatch q
  | refused q => rfl
  | next u =>
    obtain ⟨o, out, rfl⟩ := advanceOrchestrator_frame e
    simp only [mapNext]
    rw [release_withHidden]
    refine drivePorts_sameOutcome z ?_
    obtain ⟨_, er⟩ := release_frame s { t with cmdValid := false, orch := o, mem := { t.mem with txtOut := out } }
    rw [er]; exact h

/-- An initialisation step keeps dead contents dead; after step 511 there are none (rules R29, R97, R99). -/
theorem initStep_withHidden {s : State} {d : Datapath} (z : Bool) (hp : s.phase = .init)
    (h : sameLiveData s.phase s.ctr.toNat s.dp d) :
    ∃ f, initStep (s.withHidden z d) = (initStep s).withHidden z f ∧
      sameLiveData (initStep s).phase (initStep s).ctr.toNat (initStep s).dp f := by
  rw [hp] at h
  have hlive := initDatapathStep_sameLiveData s.cfg s.k h
  refine ⟨initDatapathStep s.cfg s.k s.ctr.toNat d, rfl, ?_⟩
  by_cases hl : s.ctr.toNat = 511
  · rw [show (initStep s).phase = .ad by simp [hl]]
    rw [hl] at hlive
    have := eq_of_sameLiveData_init hlive
    rw [← hl] at this
    exact this
  · rw [show (initStep s).phase = .init by simp [hl], show (initStep s).ctr.toNat = s.ctr.toNat + 1 by
      rw [initStep_ctr]; bv_omega]
    exact hlive

/-- Settles O57, one case for each kind of step: each commutes with replacing what is not live. -/
theorem zeroizeAndResetContentsAreNotObservable : Obligations.ZeroizeAndResetContentsAreNotObservable := by
  unfold Obligations.ZeroizeAndResetContentsAreNotObservable
  rintro s _ ⟨z, d, rfl, h⟩
  change sameOutcome (step s) (step (s.withHidden z d))
  rcases step_cases s with ⟨hr, e⟩ | ⟨hr, hp, e⟩ | ⟨hr, hp, hv, e⟩ | ⟨hr, hp, hv, e⟩ <;> rw [e]
  · rw [step_reset (s := s.withHidden z d) hr]
    exact drivePorts_sameOutcome (s := resetStep s) (d := Datapath.zero) z trivial
  · obtain ⟨f, ef, hf⟩ := initStep_withHidden z hp h
    rw [step_init (s := s.withHidden z d) hr hp, ef]
    exact drivePorts_sameOutcome z hf
  · obtain ⟨t, et⟩ := takeWord_answers s.cmd s
    obtain ⟨f, ef, hf⟩ := takeWord_withHidden z et h
    rw [step_command (s := s.withHidden z d) hr hp hv, et, show (s.withHidden z d).cmd = s.cmd from rfl, ef]
    exact afterCommand_sameOutcome z hf
  · rw [step_waits (s := s.withHidden z d) hr hp hv]
    exact drivePorts_sameOutcome (s := s.quiet) z h

end Sys2Proof.Machine
end

section
/-! PROOF. Steps, seen from the engine: a raw command, INIT, waiting and reset, whatever the host does next (rules R21, R28,
R45, R90, R130, R160; log entry 5). -/

namespace Sys2Proof.Machine

open Spec

/-- The release rule looks at what the engine and the buffers are, and at whether M is known. -/
theorem release_mem_congr (s : State) {t : State} {o : Orchestrator} (h : o.knowsM = t.orch.knowsM) :
    (release s { t with cmdValid := false, orch := o }).mem = (release s t).mem := by
  unfold release
  rw [show mustZero s { t with cmdValid := false, orch := o } = mustZero s t from rfl, h]
  split <;> rfl

/-- After a raw command the port is free and the orchestrator at rest; then come the release rule and the host. -/
theorem afterCommand_atRest (s : State) {t : State} (hs : t.orch.stage = .idle) :
    ∃ u, afterCommand s (.next t) = drivePorts (release s u) ∧ u.engine = t.engine ∧ u.orch.stage = .idle ∧
      u.cmdValid = false ∧ u.host = t.host ∧ (release s u).mem = (release s t).mem := by
  obtain ⟨o, e, ho, hm⟩ := advanceOrchestrator_atRest (t := { t with cmdValid := false }) hs
  exact ⟨{ t with cmdValid := false, orch := o }, by simp only [afterCommand, andThen, e], rfl, ho, rfl, rfl,
    release_mem_congr s hm⟩

/-- A raw command leaves the engine as the command left it, whatever the host does next. -/
theorem afterCommand_engine (s : State) {t : State} (hs : t.orch.stage = .idle) :
    ∃ u, afterCommand s (.next t) = .next u ∧ u.engine = t.engine := by
  obtain ⟨u, e, heng, hu, _⟩ := afterCommand_atRest s hs
  obtain ⟨v, ev, hv, _⟩ := drivePorts_of_driven (release_driven (s := s) (.inl hu))
  exact ⟨v, e.trans ev, hv.trans ((release_engine s u).trans heng)⟩

/-- Settles O4: the command is executed before the host moves, and no host move touches the engine. -/
theorem hostMovesNeverChangeAnExecutedCommand : Obligations.HostMovesNeverChangeAnExecutedCommand := by
  unfold Obligations.HostMovesNeverChangeAnExecutedCommand
  intro s t i hr hp hv hd hs e
  rw [step_command hr hp hv, takeWord_of_decode hd, e]
  exact afterCommand_engine s (by rw [(exec_sameSurroundings e).orch]; exact hs)

/-- Settles O5: in INIT the step reads no word, and only the host's withdrawing or abandoning takes it off the port. -/
theorem commandIsHeldDuringInit : Obligations.CommandIsHeldDuringInit := by
  unfold Obligations.CommandIsHeldDuringInit
  intro s hr hp hd
  rw [step_init hr hp]
  obtain ⟨t, e, heng, _⟩ := drivePorts_of_driven (s := initStep s) hd
  refine ⟨t, e, heng, fun hv hw ha => drivePorts_pending (s := initStep s) hv hw ha e, fun hh => ?_⟩
  rw [drivePorts_no_host (s := initStep s) hd hh] at e
  cases e; rfl

/-- Settles O6: a step of waiting only makes `dout` free. -/
theorem blockHoldsItsStateWithoutACommand : Obligations.BlockHoldsItsStateWithoutACommand := by
  unfold Obligations.BlockHoldsItsStateWithoutACommand
  intro s hr hp hv hs
  rw [step_waits hr hp hv]
  obtain ⟨t, e, heng, _⟩ := drivePorts_of_driven (s := s.quiet) (.inl hs)
  have hdout : t.dout = s.quiet.dout := congrArg EngineView.dout heng
  refine ⟨t, e, by rw [heng, hdout]; rfl, fun hh => ?_⟩
  rw [drivePorts_no_host (s := s.quiet) (.inl hs) hh] at e
  cases e; rfl

/-- Settles O7: the reset step's engine is the reset state's, and driving the ports keeps it. -/
theorem resetWinsOverEverything : Obligations.ResetWinsOverEverything := by
  unfold Obligations.ResetWinsOverEverything
  intro s hr
  rw [step_reset hr]
  have hd : (resetStep s).driven := .inl rfl
  obtain ⟨t, e, heng, _⟩ := drivePorts_of_driven hd
  simp only [State.engine, EngineView.mk.injEq] at heng
  obtain ⟨_, hphase, hctr, hdir, hokv, hok, htagv, herr, hcode, hwipe, htago, _, hdout, hvalid⟩ := heng
  refine ⟨t, e, hphase, hctr, hdir, hokv, hok, htagv, herr, hwipe, hcode, htago, hdout, hvalid, fun hh => ?_⟩
  rw [drivePorts_no_host hd hh] at e
  cases e; exact ⟨rfl, rfl, rfl, rfl⟩

/-- The two faults' entry and the consumed word, in the words of rules R146 and R53. -/
theorem takeFault_eq_faultState (code : ErrCode) (s : State) :
    takeFault code s = faultState code (Config.undrivenDout s.freeCount) (s.freeCount + 1) s := rfl

theorem quiet_eq_noEffect (s : State) : s.quiet = noEffect (Config.undrivenDout s.freeCount) (s.freeCount + 1) s := rfl

/-- An illegal word is consumed in ERROR and faults elsewhere (rules R50, R53, R143). -/
theorem takeIllegal_outcome {s : State} (hp : s.phase ≠ .init) :
    ∃ o n, takeIllegal s = .next (if s.phase = .error then noEffect o n s else faultState .illegalCommand o n s) := by
  refine ⟨Config.undrivenDout s.freeCount, s.freeCount + 1, ?_⟩
  by_cases he : s.phase = .error
  · rw [takeIllegal_error he, if_pos he, quiet_eq_noEffect]
  · rw [takeIllegal_faults hp he, if_neg he, takeFault_eq_faultState]

/-- Settles O3: a step that takes a word is that word's outcome and what follows a command. -/
theorem stepRunsDecodedInstruction : Obligations.StepRunsDecodedInstruction := by
  unfold Obligations.StepRunsDecodedInstruction
  intro s hr hp hv
  have hstep := step_command hr hp hv
  obtain ⟨t, et⟩ := takeWord_answers s.cmd s
  refine ⟨hstep, t, et, fun i hi => (takeWord_of_decode hi s).symm.trans et, fun hn => ?_, fun hs hh => ?_⟩
  · obtain ⟨o, n, e⟩ := takeIllegal_outcome hp
    rw [takeWord_of_illegal hn, e] at et
    cases et; exact ⟨o, n, rfl⟩
  · have hf := takeWord_sameSurroundings et
    obtain ⟨u, e, heng, hu, hvalid, hhost, hmem⟩ := afterCommand_atRest s (t := t) (by rw [hf.orch]; exact hs)
    rw [drivePorts_no_host (release_driven (.inl hu)) ((release_host s u).trans (hhost.trans (hf.host.trans hh)))] at e
    exact ⟨_, hstep.trans ((congrArg _ et).trans e), (release_engine s u).trans heng,
      (release_cmdValid s u).trans hvalid, rfl, (congrArg Orchestrator.stage (release_orch s u)).trans hu, hmem⟩

end Sys2Proof.Machine
end

section
/-! PROOF. What commands write and what they let out: the output port, the latches, and the secrets (rules R10 to R21, R25,
R27, R120 to R126, R146, R153). -/

namespace Sys2Proof.Machine

/-! The output port. -/

/-- The two commands that put out a bit (rule R21). -/
def putsOutBit : Instr → Bool
  | .encbit _ => true
  | .decbit _ => true
  | _ => false

theorem effect_doutValid (i : Instr) (s : State) : (effect i s).doutValid = putsOutBit i := by
  cases i <;> rfl

/-- `dout_valid` is 1 exactly after an admitted text command (rule R21). -/
theorem exec_doutValid {i : Instr} {s t : State} (hp : s.phase ≠ .init) (e : exec i s = .next t) :
    t.doutValid = true ↔ putsOutBit i = true ∧ (phaseAfter i s.phase s.dir).isSome = true := by
  rcases exec_cases i s with ⟨h, _⟩ | ⟨h, _, q⟩ | ⟨h, _, q⟩ | ⟨p, h, q⟩ | ⟨_, _, h, q⟩
  · exact absurd h hp
  all_goals rw [q] at e; cases e; simp [h, effect_doutValid]

/-- Where the text commands are admitted (rule R52). -/
theorem putsOutBit_admitted_iff (i : Instr) (p : Phase) (dir : Bool) :
    putsOutBit i = true ∧ (phaseAfter i p dir).isSome = true ↔
      (p = .ad ∨ p = .text) ∧ ((dir = false ∧ ∃ b, i = .encbit b) ∨ (dir = true ∧ ∃ b, i = .decbit b)) := by
  cases i with
  | encbit b => simp [putsOutBit, Option.isSome_iff_exists, phaseAfter_encbit]
  | decbit b => simp [putsOutBit, Option.isSome_iff_exists, phaseAfter_decbit]
  | _ => simp [putsOutBit]

/-- Settles O22: an illegal word puts nothing out, and a command does so exactly where it is an admitted text command. -/
theorem doutValidOnlyForTextCommands : Obligations.DoutValidOnlyForTextCommands := by
  unfold Obligations.DoutValidOnlyForTextCommands
  intro w s hp
  obtain ⟨t, et⟩ := takeWord_answers w s
  refine ⟨t, et, ?_⟩
  cases hd : decode w with
  | none =>
    rw [takeWord_of_illegal hd] at et
    rcases takeIllegal_cases s with ⟨h, _⟩ | ⟨_, q⟩ | ⟨_, _, q⟩
    · exact absurd h hp
    all_goals rw [q] at et; cases et; simp
  | some i =>
    rw [takeWord_of_decode hd] at et
    rw [exec_doutValid hp et, putsOutBit_admitted_iff]
    simp only [Option.some.injEq]

/-- Settles O23: a command writes the engine only. -/
theorem commandsLeaveBuffersAndInputsAlone : Obligations.CommandsLeaveBuffersAndInputsAlone := by
  unfold Obligations.CommandsLeaveBuffersAndInputsAlone
  intro i s t e
  obtain ⟨hrst, hvalid, hcmd, hkey, hnonce, htag, hmem, horch, hcfg, hhost⟩ := exec_sameSurroundings e
  exact ⟨fun k => by simp [hmem], hrst, hvalid, hcmd, hkey, hnonce, htag, hcfg, horch, hhost⟩

/-! The latches. -/

/-- The rules by which a command may write the latches and the registers; its fields are the clauses of O24. -/
structure WritesByRule (i : Instr) (s t : State) : Prop where
  k : t.k ≠ s.k → ∃ d, i = .load d
  dir : t.dir ≠ s.dir → i = .clear ∨ ∃ d, i = .load d
  tago_value : t.tago ≠ s.tago → (i = .tag ∧ t.tago = s.dp.acc) ∨ t.tago = 0
  tago_writer : t.tago ≠ s.tago → i = .tag ∨ i = .clear ∨ (∃ d, i = .load d) ∨ t.phase = .error
  ok : t.ok = true → s.ok = true ∨ i = .verify
  okv : t.okv = true → s.okv = true ∨ i = .verify
  tagv : t.tagv = true → s.tagv = true ∨ i = .tag
  dp : t.dp ≠ s.dp →
    (∃ d, i = .load d) ∧ t.phase = .init ∧ t.dp.acc = s.dp.acc ∧ t.dp.auth = s.dp.auth ∨
    (i = .pad ∨ ∃ b, i = .adbit b ∨ i = .encbit b ∨ i = .decbit b) ∧
      (t.phase = .ad ∨ t.phase = .text ∨ t.phase = .padded) ∨
    (i = .tag ∨ i = .verify ∨ i = .clear ∨ t.phase = .error) ∧ s.cfg.zeroize = true ∧ t.dp = ⟨0, 0, 0, 0⟩
  zeroed : i = .clear ∨ t.phase ≠ s.phase ∧ (t.phase = .done ∨ t.phase = .error) → s.cfg.zeroize = true →
    t.dp = ⟨0, 0, 0, 0⟩

/-- Discarded registers changed only by being zeroed (rule R27). -/
theorem discardRegs_ne {c : Config} {d : Datapath} (h : discardRegs c d ≠ d) :
    c.zeroize = true ∧ discardRegs c d = ⟨0, 0, 0, 0⟩ := by
  rcases discardRegs_cases c d with hz | ⟨_, e⟩
  · exact hz
  · exact absurd e h

theorem quiet_writesByRule {i : Instr} (hi : i ≠ .clear) (s : State) : WritesByRule i s s.quiet := by
  constructor <;> simp_all

theorem takeFault_writesByRule {i : Instr} (code : ErrCode) (s : State) : WritesByRule i s (takeFault code s) where
  k h := absurd rfl h
  dir h := absurd rfl h
  tago_value _ := .inr rfl
  tago_writer _ := .inr (.inr (.inr rfl))
  ok := nofun
  okv := nofun
  tagv := nofun
  dp h := .inr (.inr ⟨.inr (.inr (.inr rfl)), discardRegs_ne h⟩)
  zeroed _ hz := discardRegs_zeroize hz s.dp

theorem returnToIdle_writesByRule (s : State) : WritesByRule .clear s (returnToIdle s) where
  k h := absurd rfl h
  dir _ := .inl rfl
  tago_value _ := .inr rfl
  tago_writer _ := .inr (.inl rfl)
  ok := nofun
  okv := nofun
  tagv := nofun
  dp h := .inr (.inr ⟨.inr (.inr (.inl rfl)), discardRegs_ne h⟩)
  zeroed _ hz := discardRegs_zeroize hz s.dp

/-- A command that draws keystream writes the registers and nothing else that is latched (rules R104, R105, R120, R121). -/
theorem writesByRule_of_bit {i : Instr} {s t : State}
    (hi : i = .pad ∨ ∃ b, i = .adbit b ∨ i = .encbit b ∨ i = .decbit b)
    (hp : t.phase = .ad ∨ t.phase = .text ∨ t.phase = .padded) (hk : t.k = s.k) (hdir : t.dir = s.dir)
    (htago : t.tago = s.tago) (hok : t.ok = s.ok) (hokv : t.okv = s.okv) (htagv : t.tagv = s.tagv) : WritesByRule i s t where
  k h := absurd hk h
  dir h := absurd hdir h
  tago_value h := absurd htago h
  tago_writer h := absurd htago h
  ok h := .inl (hok ▸ h)
  okv h := .inl (hokv ▸ h)
  tagv h := .inl (htagv ▸ h)
  dp _ := .inr (.inl ⟨hi, hp⟩)
  zeroed h := by
    rcases h with rfl | ⟨_, h⟩
    · rcases hi with h | ⟨_, h | h | h⟩ <;> cases h
    · rcases hp with e | e | e <;> simp [e] at h

theorem tagEffect_writesByRule (s : State) : WritesByRule .tag s (tagEffect s) where
  k h := absurd rfl h
  dir h := absurd rfl h
  tago_value _ := .inl ⟨rfl, rfl⟩
  tago_writer _ := .inl rfl
  ok := .inl
  okv := .inl
  tagv _ := .inr rfl
  dp h := .inr (.inr ⟨.inl rfl, discardRegs_ne h⟩)
  zeroed _ hz := discardRegs_zeroize hz s.dp

theorem verifyEffect_writesByRule (s : State) : WritesByRule .verify s (verifyEffect s) where
  k h := absurd rfl h
  dir h := absurd rfl h
  tago_value h := absurd rfl h
  tago_writer h := absurd rfl h
  ok _ := .inr rfl
  okv _ := .inr rfl
  tagv := .inl
  dp h := .inr (.inr ⟨.inr (.inl rfl), discardRegs_ne h⟩)
  zeroed _ hz := discardRegs_zeroize hz s.dp

theorem effect_writesByRule {i : Instr} {s : State} {p : Phase} (hp : phaseAfter i s.phase s.dir = some p) :
    WritesByRule i s (effect i s) := by
  have hphase := effect_phase hp
  cases i with
  | nop => exact quiet_writesByRule (i := .nop) nofun s
  | clear => exact returnToIdle_writesByRule s
  | load d => constructor <;> simp [effect, loadDatapath]
  | adbit m =>
    obtain ⟨_, rfl⟩ := phaseAfter_adbit.mp hp
    exact writesByRule_of_bit (.inr ⟨m, .inl rfl⟩) (.inl hphase) rfl rfl rfl rfl rfl rfl
  | encbit b =>
    exact writesByRule_of_bit (.inr ⟨b, .inr (.inl rfl)⟩) (.inr (.inl rfl)) rfl rfl rfl rfl rfl rfl
  | decbit b =>
    exact writesByRule_of_bit (.inr ⟨b, .inr (.inr rfl)⟩) (.inr (.inl rfl)) rfl rfl rfl rfl rfl rfl
  | pad => exact writesByRule_of_bit (.inl rfl) (.inr (.inr rfl)) rfl rfl rfl rfl rfl rfl
  | tag => exact tagEffect_writesByRule s
  | verify => exact verifyEffect_writesByRule s

/-- Settles O24, one case for each outcome a command can have. -/
theorem latchesAreWrittenOnlyByTheirRules : Obligations.LatchesAreWrittenOnlyByTheirRules := by
  unfold Obligations.LatchesAreWrittenOnlyByTheirRules
  intro i s t hp e
  obtain ⟨hk, hdir, hvalue, hwriter, hok, hokv, htagv, hdp, hzero⟩ : WritesByRule i s t := by
    rcases exec_cases i s with ⟨h, _⟩ | ⟨_, hi, q⟩ | ⟨_, rfl, q⟩ | ⟨p, h, q⟩ | ⟨_, _, _, q⟩
    · exact absurd h hp
    all_goals rw [q] at e; cases e
    · exact quiet_writesByRule hi s
    · exact returnToIdle_writesByRule s
    · exact effect_writesByRule h
    · exact takeFault_writesByRule _ s
  exact ⟨hk, hdir, hvalue, hwriter, hok, hokv, htagv, hdp, hzero⟩

/-! Secrets. -/

/-- The state with other registers and another `K`. -/
def State.withSecrets (d : Datapath) (k : Reg128) (s : State) : State := { s with dp := d, k := k }

/-- The output ports of `t` and `u` are those that command `i` may not tell secrets through (rules R25, R153). -/
structure SamePublicPorts (i : Instr) (t u : State) : Prop where
  tago : i ≠ .tag → t.tago = u.tago
  status : i ≠ .verify → t.status = u.status
  doutValid : t.doutValid = u.doutValid
  dout : (∀ b, i ≠ .encbit b ∧ i ≠ .decbit b) → t.dout = u.dout

/-- What a command's effect puts out of registers and `K` goes through the ports of TAG, VERIFY and the text bits. -/
theorem effect_withSecrets (i : Instr) (s : State) (d : Datapath) (k : Reg128) :
    SamePublicPorts i (effect i s) (effect i (s.withSecrets d k)) := by
  cases i with
  | tag => exact ⟨absurd rfl, fun _ => rfl, rfl, fun _ => rfl⟩
  | verify => exact ⟨fun _ => rfl, absurd rfl, rfl, fun _ => rfl⟩
  | encbit b => exact ⟨fun _ => rfl, fun _ => rfl, rfl, fun h => absurd rfl (h b).1⟩
  | decbit b => exact ⟨fun _ => rfl, fun _ => rfl, rfl, fun h => absurd rfl (h b).2⟩
  | _ => exact ⟨fun _ => rfl, fun _ => rfl, rfl, fun _ => rfl⟩

/-- The outcome's kind does not depend on registers or `K`, and neither do the other ports. -/
theorem exec_withSecrets (i : Instr) (s : State) (d : Datapath) (k : Reg128) :
    ∃ t u, exec i s = .next t ∧ exec i (s.withSecrets d k) = .next u ∧ SamePublicPorts i t u := by
  have alike : ∀ t, SamePublicPorts i t (t.withSecrets d k) := fun t => ⟨fun _ => rfl, fun _ => rfl, rfl, fun _ => rfl⟩
  rcases exec_cases i s with ⟨h, e⟩ | ⟨h, hi, e⟩ | ⟨h, rfl, e⟩ | ⟨p, h, e⟩ | ⟨hi, he, h, e⟩
  · exact ⟨_, _, e, exec_init h, alike s⟩
  · exact ⟨_, _, e, exec_error h hi, alike s.quiet⟩
  · have hi : (s.withSecrets d k).phase ≠ .init := by simp [State.withSecrets, h]
    exact ⟨_, _, e, exec_clear hi, effect_withSecrets .clear s d k⟩
  · exact ⟨_, _, e, exec_admitted (s := s.withSecrets d k) h, effect_withSecrets i s d k⟩
  · exact ⟨_, _, e, exec_refused (s := s.withSecrets d k) hi he h, ⟨fun _ => rfl, fun _ => rfl, rfl, fun _ => rfl⟩⟩

/-- Settles O25: two runs of a command that differ in secrets only have the same kind of outcome. -/
theorem secretsReachNoOtherPort : Obligations.SecretsReachNoOtherPort := by
  unfold Obligations.SecretsReachNoOtherPort
  intro i s d k
  obtain ⟨t, u, et, eu, htago, hstatus, hvalid, hdout⟩ := exec_withSecrets i s d k
  exact ⟨t, u, et, eu, htago, hstatus, hvalid, hdout⟩

/-! Views and reset values. -/

/-- Settles O8: each field of the reset state by its definition. -/
theorem resetStateHasTheResetValues : Obligations.ResetStateHasTheResetValues := by
  unfold Obligations.ResetStateHasTheResetValues
  decide

/-- A bit of STATUS as a bit of its fields in a row, at the width the row has. -/
theorem status_getLsbD (s : State) (i : Nat) :
    s.status.getLsbD i = (0#2 ++ BitVec.ofBool s.wipe ++ s.errcode.code ++ BitVec.ofBool s.err ++ BitVec.ofBool s.ok
      ++ BitVec.ofBool s.okv ++ BitVec.ofBool s.tagv ++ BitVec.ofBool s.cmdReady ++ BitVec.ofBool s.dir
      ++ s.phase.code).getLsbD i :=
  rfl

/-- The fields of STATUS that are one bit wide, from bit 3 up (rule R20). -/
theorem status_flags (s : State) :
    [3, 4, 5, 6, 7, 8, 13].map s.status.getLsbD = [s.dir, s.cmdReady, s.tagv, s.okv, s.ok, s.err, s.wipe] := by
  simp only [List.map_cons, List.map_nil, status_getLsbD, BitVec.getLsbD_append]
  simp

theorem status_phase (s : State) : s.status.extractLsb' 0 3 = s.phase.code := by
  refine BitVec.eq_of_getLsbD_eq fun i hi => ?_
  rw [BitVec.getLsbD_extractLsb', status_getLsbD]
  simp only [BitVec.getLsbD_append]
  simp [hi]

theorem status_errcode (s : State) : s.status.extractLsb' 9 4 = s.errcode.code := by
  refine BitVec.eq_of_getLsbD_eq fun i hi => ?_
  rw [BitVec.getLsbD_extractLsb', status_getLsbD]
  simp only [BitVec.getLsbD_append]
  interval_cases i <;> simp

theorem status_reserved (s : State) : s.status.extractLsb' 14 2 = 0#2 := by
  refine BitVec.eq_of_getLsbD_eq fun i hi => ?_
  rw [BitVec.getLsbD_extractLsb', status_getLsbD]
  simp only [BitVec.getLsbD_append]
  interval_cases i <;> simp

/-- Settles O26: each field of STATUS is read back from its place in the row. -/
theorem statusWordLayout : Obligations.StatusWordLayout := by
  unfold Obligations.StatusWordLayout
  refine ⟨fun s => ?_, rfl, rfl⟩
  have hflags := status_flags s
  simp only [List.map_cons, List.cons.injEq] at hflags
  obtain ⟨hdir, hready, htagv, hokv, hok, herr, hwipe, _⟩ := hflags
  exact ⟨status_phase s, hdir, hready, cmdReady_iff s, htagv, hokv, hok, herr, status_errcode s, hwipe, status_reserved s⟩

end Sys2Proof.Machine
end

section
/-! PROOF. The encoding: a legal word is the encoding of its command, and the rows of the opcode map (rules R46 to R48, R50,
R51). -/

namespace Sys2Proof.Machine

open Spec Laws.EncodedFields

/-! A word and its fields (rule R46). -/

theorem toWord_fieldsOf (w : CmdWord) : (fieldsOf w).toWord = w := by
  refine BitVec.eq_of_getLsbD_eq fun i hi => ?_
  simp only [Fields.toWord, fieldsOf, BitVec.getLsbD_append, BitVec.getLsbD_extractLsb']
  interval_cases i <;> simp

theorem fieldsOf_injective : Function.Injective fieldsOf :=
  Function.LeftInverse.injective toWord_fieldsOf

/-- The fields of a command's word: its opcode, reserved bits 000 and its operand. -/
theorem fieldsOf_encode (i : Instr) : fieldsOf (encode i) = ⟨BitVec.ofNat 4 (opcode i), 0, operand i⟩ := by
  have statement : Statement i := by
    cases i with
    | nop => exact nop
    | load d => exact load d
    | adbit m => exact adbit m
    | encbit p => exact encbit p
    | decbit c => exact decbit c
    | pad => exact pad
    | tag => exact tag
    | verify => exact verify
    | clear => exact clear
  exact statement.1

/-- An opcode names the command that has it, and where the operand bit is allowed it is the command's (rules R46, R48). -/
theorem fields_of_commandOf {f : Fields} {i : Instr} (hallowed : f.operandAllowed = true)
    (h : commandOf f.op f.d = some i) : f.op = BitVec.ofNat 4 (opcode i) ∧ f.d = operand i := by
  unfold commandOf at h
  split at h <;> cases h
  all_goals
    rename_i hop
    exact ⟨BitVec.eq_of_toNat_eq hop, by simp_all [Fields.operandAllowed, formatOf, operand]⟩

theorem encode_of_decode {w : CmdWord} {i : Instr} (h : decode w = some i) : encode i = w := by
  unfold decode at h
  simp only [Option.ite_none_right_eq_some] at h
  obtain ⟨hwf, hcommand⟩ := h
  simp only [Fields.wf, Fields.reservedClear, Bool.and_eq_true, beq_iff_eq] at hwf
  obtain ⟨⟨_, hrsv⟩, hallowed⟩ := hwf
  obtain ⟨hop, hd⟩ := fields_of_commandOf hallowed hcommand
  apply fieldsOf_injective
  rw [fieldsOf_encode, ← hop, ← hd, ← hrsv]

theorem decode_eq_some_iff {w : CmdWord} {i : Instr} : decode w = some i ↔ encode i = w :=
  ⟨encode_of_decode, fun h => h ▸ decode_encode i⟩

theorem decodeTableWord_toNat (w : CmdWord) : decodeTableWord 8 w.toNat = decode w := by
  simp [decodeTableWord, w.isLt]

/-- Settles O2: the fields of a legal word are those of its command's encoding, and a word is made of its fields. -/
theorem decodeAndEncodeAreInverse : Obligations.DecodeAndEncodeAreInverse := by
  unfold Obligations.DecodeAndEncodeAreInverse
  exact fun i w => ⟨decode_eq_some_iff, decodeTableWord_toNat w⟩

/-! The rows of the opcode map (rule R48). -/

/-- The one or two words a row with operand selects: the row's match with the operand as bit 0. -/
theorem encode_operandRow {row : Bool → Instr} {m w : CmdWord}
    (hrow : ∀ b, encode (row b) = m ||| (BitVec.ofBool b).setWidth 8) (h : w &&& 0xFE#8 = m) :
    encode (row (w.getLsbD 0)) = w := by
  rw [hrow, ← h]
  refine BitVec.eq_of_getLsbD_eq fun i hi => ?_
  interval_cases i <;> simp

theorem rowsR48_encode (i : Instr) : rowsR48 (encode i) = some i := by
  cases i with
  | nop | pad | tag | verify | clear => decide
  | load b | adbit b | encbit b | decbit b => cases b <;> decide

theorem encode_of_rowsR48 {w : CmdWord} {i : Instr} (h : rowsR48 w = some i) : encode i = w := by
  have hmask : w &&& 0xFF#8 = w := BitVec.and_allOnes
  unfold rowsR48 at h
  rw [hmask] at h
  split_ifs at h with hnop hload hadbit hencbit hdecbit hpad htag hverify hclear <;> cases h
  · exact hnop.symm
  · exact encode_operandRow (by decide) hload
  · exact encode_operandRow (by decide) hadbit
  · exact encode_operandRow (by decide) hencbit
  · exact encode_operandRow (by decide) hdecbit
  · exact hpad.symm
  · exact htag.symm
  · exact hverify.symm
  · exact hclear.symm

theorem decode_eq_rowsR48 (w : CmdWord) : decode w = rowsR48 w :=
  Option.ext fun _ => ⟨fun h => encode_of_decode h ▸ rowsR48_encode _, fun h => decode_eq_some_iff.mpr (encode_of_rowsR48 h)⟩

/-- The legal words are the encodings of the commands (rule R48). -/
theorem mem_legalWords_iff (w : CmdWord) : w ∈ legalWords ↔ ∃ i, encode i = w := by
  constructor
  · intro h
    have hall : ∀ v ∈ legalWords, (decode v).isSome = true := by decide
    obtain ⟨i, hi⟩ := Option.isSome_iff_exists.mp (hall w h)
    exact ⟨i, encode_of_decode hi⟩
  · rintro ⟨i, rfl⟩
    cases i with
    | nop | pad | tag | verify | clear => decide
    | load b | adbit b | encbit b | decbit b => cases b <;> decide

theorem decode_isSome_iff (w : CmdWord) : (decode w).isSome = true ↔ w ∈ legalWords := by
  simp only [Option.isSome_iff_exists, decode_eq_some_iff, mem_legalWords_iff]

/-- Settles O1: the decoder and the map accept the encodings of the commands, and nothing else. -/
theorem decodeFollowsOpcodeMap : Obligations.DecodeFollowsOpcodeMap := by
  unfold Obligations.DecodeFollowsOpcodeMap
  exact fun w => ⟨decode_eq_rowsR48 w, decode_isSome_iff w⟩

end Sys2Proof.Machine
end

section
/-! PROOF. Where command words act: ERROR, and the admission table (rules R49, R52, R53, R144). -/

namespace Sys2Proof.Machine

open Spec

/-- In ERROR every word but CLEAR's is consumed (rule R53). -/
theorem takeWord_error {w : CmdWord} {s : State} (h : s.phase = .error) (hw : w ≠ encode .clear) :
    takeWord w s = .next s.quiet := by
  cases hd : decode w with
  | none => rw [takeWord_of_illegal hd, takeIllegal_error h]
  | some i =>
    have hi : i ≠ .clear := fun hi => hw (hi ▸ (encode_of_decode hd).symm)
    rw [takeWord_of_decode hd, exec_error h hi]

/-- Settles O18: only 0x80 decodes to CLEAR, the one command that acts in ERROR. -/
theorem errorConsumesEveryOtherWord : Obligations.ErrorConsumesEveryOtherWord := by
  unfold Obligations.ErrorConsumesEveryOtherWord
  intro w s he
  refine ⟨fun hw => ⟨_, _, (takeWord_error he hw).trans (congrArg _ (quiet_eq_noEffect s))⟩, ?_⟩
  rintro rfl
  have htake : takeWord 0x80#8 s = exec .clear s := takeWord_of_decode (decode_encode .clear) s
  have hclear : exec .clear s = .next (returnToIdle s) := exec_clear (by simp [he])
  exact ⟨htake, returnToIdle s, htake.trans hclear, rfl, rfl, rfl⟩

/-- The model's admission table is rule R52's, in the phases that have a column. -/
theorem phaseAfter_eq_tableR52 {p : Phase} (hi : p ≠ .init) (he : p ≠ .error) (i : Instr) (dir : Bool) :
    phaseAfter i p dir = tableR52 i p dir := by
  refine Option.ext fun q => ?_
  cases i with
  | nop => simp [phaseAfter_nop, tableR52, hi, he]
  | load d => simp [phaseAfter_load, tableR52, eq_comm (a := q)]
  | adbit m => simp [phaseAfter_adbit, tableR52, eq_comm (a := q)]
  | encbit b => simp [phaseAfter_encbit, tableR52, eq_comm (a := q), and_assoc, and_left_comm]
  | decbit b => simp [phaseAfter_decbit, tableR52, eq_comm (a := q), and_assoc, and_left_comm]
  | pad => simp [phaseAfter_pad, tableR52, eq_comm (a := q)]
  | tag => simp [phaseAfter_tag, tableR52, eq_comm (a := q), and_assoc, and_left_comm]
  | verify => simp [phaseAfter_verify, tableR52, eq_comm (a := q), and_assoc, and_left_comm]
  | clear => simp [phaseAfter_clear, tableR52, hi, he, eq_comm (a := q)]

/-- A command's own effect raises no fault, and only CLEAR takes one back (rules R126, R146). -/
theorem effect_fault {i : Instr} (h : i ≠ .clear) (s : State) :
    (effect i s).err = s.err ∧ (effect i s).errcode = s.errcode := by
  cases i with
  | clear => exact absurd rfl h
  | _ => exact ⟨rfl, rfl⟩

/-- Settles O19: an admitted command has its effect, and one that is not admitted enters the fault. -/
theorem admissionFollowsTheTable : Obligations.AdmissionFollowsTheTable := by
  unfold Obligations.AdmissionFollowsTheTable
  intro i s hi he
  rw [← phaseAfter_eq_tableR52 hi he]
  cases h : phaseAfter i s.phase s.dir with
  | some p => exact ⟨effect i s, exec_admitted h, effect_phase h, fun hc => effect_fault hc s⟩
  | none => exact ⟨_, exec_refused hi he h, rfl, rfl, rfl, rfl⟩

end Sys2Proof.Machine
end

section
/-! PROOF. Windows and shifts bit by bit: every width, and the byte forms over byte strings (rules R60 to R65). -/

namespace Sys2Proof

theorem Width.bits_pos (w : Width) : 0 < w.bits := by cases w <;> decide

theorem Width.bits_le (w : Width) : w.bits ≤ 32 := by cases w <;> decide

end Sys2Proof

namespace Sys2Proof.Machine

open Spec

/-! Shifts: the lowest `k` bits leave and new bits enter at the top (rules R62 to R64). -/

/-- Two values side by side, the lower one moved down by `k` bits and the other entering at the top. -/
theorem shiftRight_or_shiftLeft_getLsbD {n k : Nat} (lo hi : BitVec n) (hk : k ≤ n) {i : Nat} (hn : i < n) :
    ((lo >>> k) ||| (hi <<< (n - k))).getLsbD i = if i + k < n then lo.getLsbD (i + k) else hi.getLsbD (i - (n - k)) := by
  rw [BitVec.getLsbD_or, BitVec.getLsbD_ushiftRight, BitVec.getLsbD_shiftLeft, Nat.add_comm k i]
  split
  case isTrue h => simp [show i < n - k by omega]
  case isFalse h => simp [hn, show ¬ i < n - k by omega, BitVec.getLsbD_of_ge lo (i + k) (by omega)]

/-- The same with one new bit. -/
theorem shiftRight_or_ofBool_getLsbD {n : Nat} (r : BitVec (n + 1)) (b : Bool) {i : Nat} (hi : i < n + 1) :
    ((r >>> 1) ||| ((BitVec.ofBool b).setWidth (n + 1) <<< n)).getLsbD i = if i = n then b else r.getLsbD (i + 1) := by
  refine (shiftRight_or_shiftLeft_getLsbD r _ (by omega : 1 ≤ n + 1) hi).trans ?_
  split
  case isTrue h => rw [if_neg (by omega)]
  case isFalse h =>
    obtain rfl : i = n := by omega
    simp

/-- `shift_in` moves every bit down by the width and takes the new ones at the top (rule R62). -/
theorem shiftIn_getLsbD (w : Width) (r : Reg128) (v : BitVec w.bits) {i : Nat} (hi : i < 128) :
    (shiftIn w r v).getLsbD i = if i + w.bits < 128 then r.getLsbD (i + w.bits) else v.getLsbD (i - (128 - w.bits)) := by
  have hw := w.bits_le
  have hin : i - (128 - w.bits) < 128 := by omega
  rw [shiftIn, shiftRight_or_shiftLeft_getLsbD r _ (by omega) hi, BitVec.getLsbD_setWidth]
  simp only [hin, decide_true, Bool.true_and]

/-- `shift_in` of one bit (rules R14, R62). -/
theorem shiftIn1_getLsbD (r : Reg128) (b : Bool) {i : Nat} (hi : i < 128) :
    (shiftIn1 r b).getLsbD i = if i = 127 then b else r.getLsbD (i + 1) :=
  shiftRight_or_ofBool_getLsbD r b hi

/-- `shift_in64` (rule R64). -/
theorem shiftIn64_getLsbD (a : Reg64) (b : Bool) {i : Nat} (hi : i < 64) :
    (shiftIn64 a b).getLsbD i = if i = 63 then b else a.getLsbD (i + 1) :=
  shiftRight_or_ofBool_getLsbD a b hi

/-- Settles O33: each operation is read bit by bit. -/
theorem shiftsAndSetBitMoveExactlyTheirBits : Obligations.ShiftsAndSetBitMoveExactlyTheirBits := by
  unfold Obligations.ShiftsAndSetBitMoveExactlyTheirBits
  exact ⟨fun w r v _ hi => shiftIn_getLsbD w r v hi, fun _ b _ _ v _ hj => setBit_getLsbD b v hj,
    fun a x _ hi => shiftIn64_getLsbD a x hi⟩

/-! Width `w` against `w` times width 1 (rule R63). -/

/-- A list of bits shifted in one at a time: the register and the list side by side, from the list's length up. -/
theorem foldl_shiftIn1_getLsbD (bits : List Bool) (r : Reg128) {i : Nat} (hi : i < 128) :
    (bits.foldl shiftIn1 r).getLsbD i =
      if i + bits.length < 128 then r.getLsbD (i + bits.length) else bits.getD (i + bits.length - 128) false := by
  induction bits generalizing r with
  | nil => simp [hi]
  | cons b bits ih =>
    rw [List.foldl_cons, ih, List.length_cons]
    rcases Nat.lt_trichotomy (i + bits.length) 127 with h | h | h
    · rw [if_pos (by omega), if_pos (by omega), shiftIn1_getLsbD _ _ (by omega), if_neg (by omega), Nat.add_assoc]
    · rw [if_pos (by omega), if_neg (by omega), shiftIn1_getLsbD _ _ (by omega), if_pos h]
      simp [← Nat.add_assoc, h]
    · obtain ⟨j, hj⟩ : ∃ j, i + bits.length = j + 128 := ⟨i + bits.length - 128, by omega⟩
      rw [if_neg (by omega), if_neg (by omega), ← Nat.add_assoc, hj]
      simp [show j + 128 + 1 - 128 = j + 1 by omega]

theorem bitsOf_length {n : Nat} (v : BitVec n) : (bitsOf v).length = n := by simp [bitsOf]

theorem bitsOf_getD {n : Nat} (v : BitVec n) {i : Nat} (hi : i < n) : (bitsOf v).getD i false = v.getLsbD i := by
  simp [bitsOf, hi]

/-- One `shift_in` of width w is w of width 1, bit 0 first (rule R63). -/
theorem shiftIn_eq_foldl (w : Width) (r : Reg128) (v : BitVec w.bits) : shiftIn w r v = (bitsOf v).foldl shiftIn1 r := by
  refine BitVec.eq_of_getLsbD_eq fun i hi => ?_
  have hw := w.bits_le
  rw [shiftIn_getLsbD w r v hi, foldl_shiftIn1_getLsbD _ r hi, bitsOf_length]
  split
  · rfl
  · rw [bitsOf_getD v (by omega), show i + w.bits - 128 = i - (128 - w.bits) by omega]

/-- A window is given exactly when it fits, and is made of the bits from its start up (rule R60). -/
theorem extract_eq_some_iff {n : Nat} {b : BitVec n} {s : Nat} {w : Width} {v : BitVec w.bits} :
    extract b s w = some v ↔ s + w.bits ≤ n ∧ ∀ j, j < w.bits → v.getLsbD j = b.getLsbD (s + j) := by
  simp only [extract, Option.ite_none_right_eq_some, Option.some.injEq]
  refine and_congr_right fun _ => ⟨?_, fun h => ?_⟩
  · rintro rfl j hj
    simp [hj]
  · refine BitVec.eq_of_getLsbD_eq fun j hj => ?_
    rw [h j hj, BitVec.getLsbD_extractLsb']
    simp only [hj, decide_true, Bool.true_and]

theorem extract_isSome_iff {n : Nat} {b : BitVec n} {s : Nat} {w : Width} :
    (extract b s w).isSome = true ↔ s + w.bits ≤ n := by
  simp [extract]

/-- Each bit of a window is the 1-bit window at its own address (rule R63). -/
theorem extract_w1_of_extract {n : Nat} {b : BitVec n} {s : Nat} {w : Width} {v : BitVec w.bits}
    (h : extract b s w = some v) {j : Nat} (hj : j < w.bits) :
    extract b (s + j) .w1 = some (BitVec.ofBool (v.getLsbD j)) := by
  obtain ⟨hfits, hbits⟩ := extract_eq_some_iff.mp h
  refine extract_eq_some_iff.mpr ⟨?_, fun k hk => ?_⟩
  · show s + j + 1 ≤ n
    omega
  · obtain rfl : k = 0 := Nat.lt_one_iff.mp hk
    simp [hbits j hj]

/-- Settles O35: the shift by induction over the bits that enter, the window bit by bit. -/
theorem widthsAreEquivalent : Obligations.WidthsAreEquivalent := by
  unfold Obligations.WidthsAreEquivalent
  exact fun w => ⟨shiftIn_eq_foldl w, fun _ _ _ _ h _ hj => extract_w1_of_extract h hj⟩

/-! Bytes as a port value (rules R32, R33). -/

/-- A bit address lies in a buffer exactly when its byte does (rule R8). -/
theorem bufBit_isSome_iff {bs : List Byte} {i : Nat} : (bufBit bs i).isSome = true ↔ i < 8 * bs.length := by
  simp only [bufBit, bufRead, Option.isSome_map, isSome_getElem?]
  omega

theorem bufBit_cons_of_lt {b : Byte} {bs : List Byte} {i : Nat} (h : i < 8) : bufBit (b :: bs) i = some (b.getLsbD i) := by
  simp [bufBit, bufRead, Nat.div_eq_of_lt h, Nat.mod_eq_of_lt h]

theorem bufBit_cons_of_ge {b : Byte} {bs : List Byte} {i : Nat} (h : 8 ≤ i) : bufBit (b :: bs) i = bufBit bs (i - 8) := by
  obtain ⟨j, rfl⟩ := Nat.exists_eq_add_of_le' h
  simp [bufBit, bufRead]

/-- Bit `i` of the little-endian number of a byte string is the buffer's bit `i` (rules R32, R33). -/
theorem bytesToNat_testBit (bs : List Byte) (i : Nat) : (bytesToNat bs).testBit i = (bufBit bs i).getD false := by
  induction bs generalizing i with
  | nil => simp [bytesToNat, bufBit, bufRead]
  | cons b bs ih =>
    have hbyte : (bytesToNat (b :: bs)).testBit i = if i < 8 then b.getLsbD i else (bytesToNat bs).testBit (i - 8) := by
      rw [bytesToNat, Nat.add_comm]
      exact Nat.testBit_two_pow_mul_add (bytesToNat bs) b.isLt i
    rw [hbyte]
    split
    case isTrue h => rw [bufBit_cons_of_lt h]; rfl
    case isFalse h => rw [bufBit_cons_of_ge (by omega), ih]

theorem bufBit_eq_portOfBytes {bs : List Byte} {i : Nat} (h : i < 8 * bs.length) :
    bufBit bs i = some ((portOfBytes (8 * bs.length) bs).getLsbD i) := by
  obtain ⟨x, hx⟩ := Option.isSome_iff_exists.mp (bufBit_isSome_iff.mpr h)
  rw [portOfBytes, BitVec.getLsbD_ofNat, bytesToNat_testBit, hx]
  simp [h]

/-! Windows of a byte string (rules R60, R61). -/

/-- `v` holds the bits of the byte string from address `s` up: what every form of `extract` has to give (rule R60). -/
def WindowAt (bs : List Byte) (s : Nat) {n : Nat} (v : BitVec n) : Prop :=
  ∀ j, j < n → bufBit bs (s + j) = some (v.getLsbD j)

/-- A window put together from two that touch. -/
theorem WindowAt.append {bs : List Byte} {s n m : Nat} {lo : BitVec n} {hi : BitVec m} (hlo : WindowAt bs s lo)
    (hhi : WindowAt bs (s + n) hi) : WindowAt bs s (hi ++ lo) := by
  intro j hj
  rw [BitVec.getLsbD_append]
  split
  case isTrue h => exact hlo j h
  case isFalse h =>
    have hbit := hhi (j - n) (by omega)
    rwa [Nat.add_assoc, Nat.add_sub_cancel' (by omega)] at hbit

/-- `extract` of the port value gives the window of the byte string where it fits. -/
theorem windowAt_of_extract {bs : List Byte} {s : Nat} {w : Width} {v : BitVec w.bits}
    (h : extract (portOfBytes (8 * bs.length) bs) s w = some v) : WindowAt bs s v := by
  obtain ⟨hfits, hbits⟩ := extract_eq_some_iff.mp h
  intro j hj
  rw [bufBit_eq_portOfBytes (by omega), hbits j hj]

/-- A byte form is `extract` when it gives windows, and exactly those that fit. -/
theorem eq_extract_of_windowAt {bs : List Byte} {s : Nat} {w : Width} {o : Option (BitVec w.bits)}
    (hwindow : ∀ v, o = some v → WindowAt bs s v) (hfits : s + w.bits ≤ 8 * bs.length → o.isSome = true) :
    o = extract (portOfBytes (8 * bs.length) bs) s w := by
  have hpos := w.bits_pos
  cases o with
  | none => exact (if_neg fun h => nomatch hfits h).symm
  | some v =>
    have hv := hwindow v rfl
    have hlast : s + (w.bits - 1) < 8 * bs.length := bufBit_isSome_iff.mp (by rw [hv _ (by omega)]; rfl)
    refine (extract_eq_some_iff.mpr ⟨by omega, fun j hj => ?_⟩).symm
    exact Option.some.inj ((hv j hj).symm.trans (bufBit_eq_portOfBytes (by omega)))

theorem byteWindow1_eq_bufBit (bs : List Byte) (s : Nat) : byteWindow1 bs s = bufBit bs s := rfl

theorem byteWindow1_windowAt {bs : List Byte} {s : Nat} {v : BitVec 1}
    (h : (byteWindow1 bs s).map BitVec.ofBool = some v) : WindowAt bs s v := by
  obtain ⟨x, hx, rfl⟩ := Option.map_eq_some_iff.mp h
  intro j hj
  obtain rfl : j = 0 := Nat.lt_one_iff.mp hj
  simpa [← byteWindow1_eq_bufBit] using hx

/-- Bit `j` from address `s` up lies in the byte of `s`, or in the next one. -/
theorem bufBit_add (bs : List Byte) (s : Nat) {j : Nat} (hj : j < 8) :
    bufBit bs (s + j) =
      if j + s % 8 < 8 then (bs[s / 8]?).map (·.getLsbD (j + s % 8))
      else (bs[s / 8 + 1]?).map (·.getLsbD (j - (8 - s % 8))) := by
  unfold bufBit bufRead
  split
  · rw [show (s + j) / 8 = s / 8 by omega, show (s + j) % 8 = j + s % 8 by omega]
  · rw [show (s + j) / 8 = s / 8 + 1 by omega, show (s + j) % 8 = j - (8 - s % 8) by omega]

theorem byteWindow8_windowAt {bs : List Byte} {s : Nat} {v : Byte} (h : byteWindow8 bs s = some v) : WindowAt bs s v := by
  intro j hj
  rw [bufBit_add bs s hj]
  unfold byteWindow8 at h
  split at h
  · cases h
  next lo hlo =>
    split at h
    case isTrue haligned => cases h; simp [haligned, hj, hlo]
    case isFalse =>
      obtain ⟨hi, hhi, rfl⟩ := Option.map_eq_some_iff.mp h
      rw [shiftRight_or_shiftLeft_getLsbD lo hi (by omega : s % 8 ≤ 8) hj, hlo, hhi]
      split <;> rfl

theorem byteWindow8_isSome {bs : List Byte} {s : Nat} (h : s + 8 ≤ 8 * bs.length) : (byteWindow8 bs s).isSome = true := by
  unfold byteWindow8
  rw [List.getElem?_eq_getElem (by omega : s / 8 < bs.length)]
  dsimp only
  split
  · rfl
  · rw [List.getElem?_eq_getElem (by omega : s / 8 + 1 < bs.length)]
    rfl

/-- The 32-bit byte form is four 8-bit windows that touch (rule R61). -/
theorem byteWindow32_eq_some_iff {bs : List Byte} {s : Nat} {v : BitVec 32} :
    byteWindow32 bs s = some v ↔ ∃ b0 b1 b2 b3, byteWindow8 bs s = some b0 ∧ byteWindow8 bs (s + 8) = some b1 ∧
      byteWindow8 bs (s + 16) = some b2 ∧ byteWindow8 bs (s + 24) = some b3 ∧ v = b3 ++ b2 ++ b1 ++ b0 := by
  unfold byteWindow32
  constructor
  · intro h
    split at h
    next b0 b1 b2 b3 h0 h1 h2 h3 => cases h; exact ⟨b0, b1, b2, b3, h0, h1, h2, h3, rfl⟩
    next => cases h
  · rintro ⟨b0, b1, b2, b3, h0, h1, h2, h3, rfl⟩
    rw [h0, h1, h2, h3]

theorem byteWindow32_windowAt {bs : List Byte} {s : Nat} {v : BitVec 32} (h : byteWindow32 bs s = some v) :
    WindowAt bs s v := by
  obtain ⟨b0, b1, b2, b3, h0, h1, h2, h3, rfl⟩ := byteWindow32_eq_some_iff.mp h
  exact (byteWindow8_windowAt h0).append ((byteWindow8_windowAt h1).append ((byteWindow8_windowAt h2).append
    (byteWindow8_windowAt h3)))

theorem byteWindow32_isSome {bs : List Byte} {s : Nat} (h : s + 32 ≤ 8 * bs.length) : (byteWindow32 bs s).isSome = true := by
  obtain ⟨b0, h0⟩ := Option.isSome_iff_exists.mp (byteWindow8_isSome (bs := bs) (s := s) (by omega))
  obtain ⟨b1, h1⟩ := Option.isSome_iff_exists.mp (byteWindow8_isSome (bs := bs) (s := s + 8) (by omega))
  obtain ⟨b2, h2⟩ := Option.isSome_iff_exists.mp (byteWindow8_isSome (bs := bs) (s := s + 16) (by omega))
  obtain ⟨b3, h3⟩ := Option.isSome_iff_exists.mp (byteWindow8_isSome (bs := bs) (s := s + 24) (by omega))
  exact Option.isSome_iff_exists.mpr ⟨_, byteWindow32_eq_some_iff.mpr ⟨b0, b1, b2, b3, h0, h1, h2, h3, rfl⟩⟩

/-- Settles O34: each byte form gives the bits of the window, and gives them whenever the window fits. -/
theorem byteWindowsAreBitWindows : Obligations.ByteWindowsAreBitWindows := by
  unfold Obligations.ByteWindowsAreBitWindows
  intro bs s
  refine ⟨?_, ?_, ?_, fun w => ⟨extract_isSome_iff, fun v => windowAt_of_extract⟩⟩
  · refine eq_extract_of_windowAt (w := .w1) (fun _ => byteWindow1_windowAt) fun h => ?_
    rw [Option.isSome_map, byteWindow1_eq_bufBit]
    exact bufBit_isSome_iff.mpr h
  · exact eq_extract_of_windowAt (w := .w8) (fun _ => byteWindow8_windowAt) byteWindow8_isSome
  · exact eq_extract_of_windowAt (w := .w32) (fun _ => byteWindow32_windowAt) byteWindow32_isSome

end Sys2Proof.Machine
end

section
/-! PROOF. The feedback functions: the formulas, the lanes of the batched forms, and a batch of generation clocks (rules R70 to
R77, R82, R85). -/

namespace Sys2Proof.Machine

open Spec

/-! The formulas with the default parameters (rules R70 to R75). -/

@[simp] theorem tapProduct_nil (n : Reg128) : tapProduct n [] = true := rfl

@[simp] theorem tapProduct_cons (n : Reg128) (tap : Nat) (taps : List Nat) :
    tapProduct n (tap :: taps) = (n.getLsbD tap && tapProduct n taps) := rfl

@[simp] theorem fNfsr_nil (n : Reg128) : fNfsr [] n = false := rfl

@[simp] theorem fNfsr_cons (term : List Nat) (terms : List (List Nat)) (n : Reg128) :
    fNfsr (term :: terms) n = (tapProduct n term ^^ fNfsr terms n) := rfl

/-- The default `F` term by term (rules R72, R74): the model's right-nested sum against the spec's row. -/
theorem feedbackF_default (l n : Reg128) :
    let N := n.getLsbD
    feedbackF defaultConfig l n =
      (l.getLsbD 0 ^^ N 0 ^^ N 26 ^^ N 56 ^^ N 91 ^^ N 96 ^^ (N 3 && N 67) ^^ (N 11 && N 13) ^^ (N 17 && N 18) ^^ (N 27 && N 59)
        ^^ (N 40 && N 48) ^^ (N 61 && N 65) ^^ (N 68 && N 84) ^^ (N 22 && N 24 && N 25) ^^ (N 70 && N 78 && N 82)
        ^^ (N 88 && N 92 && N 93 && N 95)) := by
  simp only [feedbackF, defaultConfig, defaultFNfsr, fNfsr_cons, fNfsr_nil, tapProduct_cons, tapProduct_nil, Bool.and_true,
    Bool.xor_false, Bool.xor_assoc, Bool.and_assoc]

/-- Settles O36: `F` by its terms; `h`, `L` and the keystream bit are written in the model as in the spec. -/
theorem feedbackFormulasWithTheDefaults : Obligations.FeedbackFormulasWithTheDefaults := by
  unfold Obligations.FeedbackFormulasWithTheDefaults
  exact fun l n => ⟨rfl, rfl, feedbackF_default l n, fun _ => rfl⟩

/-! One lane of the batched functions (rules R73, R77). -/

/-- Lane `j` of every tap of `r` that rule R73 allows is the 1-bit tap of `r'`. -/
structure IsLane (w : Width) (j : Nat) (r r' : Reg128) : Prop where
  tap : ∀ a, a ≤ 96 → (tapW w r a).getLsbD j = r'.getLsbD a

theorem tapProductW_lane {w : Width} {j : Nat} {n n' : Reg128} {taps : List Nat} (hj : j < w.bits) (hn : IsLane w j n n')
    (htaps : ∀ tap ∈ taps, tap ≤ 96) : (tapProductW w n taps).getLsbD j = tapProduct n' taps := by
  induction taps with
  | nil => simp [tapProductW, hj]
  | cons tap taps ih =>
    obtain ⟨htap, htaps⟩ := List.forall_mem_cons.mp htaps
    rw [tapProduct_cons, ← hn.tap tap htap, ← ih htaps]
    exact BitVec.getLsbD_and

theorem fNfsrW_lane {w : Width} {j : Nat} {n n' : Reg128} {terms : List (List Nat)} (hj : j < w.bits) (hn : IsLane w j n n')
    (hterms : ∀ term ∈ terms, ∀ tap ∈ term, tap ≤ 96) : (fNfsrW w terms n).getLsbD j = fNfsr terms n' := by
  induction terms with
  | nil => exact BitVec.getLsbD_zero
  | cons term terms ih =>
    obtain ⟨hterm, hterms⟩ := List.forall_mem_cons.mp hterms
    rw [fNfsr_cons, ← tapProductW_lane hj hn hterm, ← ih hterms]
    exact BitVec.getLsbD_xor

theorem tapsInRange_iff {c : Config} : c.tapsInRange = true ↔ ∀ term ∈ c.fNfsr, ∀ tap ∈ term, tap ≤ 96 := by
  simp [Config.tapsInRange]

theorem feedbackFW_lane {w : Width} {c : Config} {j : Nat} {l l' n n' : Reg128} (hc : c.tapsInRange = true)
    (hj : j < w.bits) (hl : IsLane w j l l') (hn : IsLane w j n n') :
    (feedbackFW w c l n).getLsbD j = feedbackF c l' n' := by
  rw [feedbackFW, BitVec.getLsbD_xor, hl.tap 0 (by decide), fNfsrW_lane hj hn (tapsInRange_iff.mp hc), feedbackF]

theorem feedbackLW_lane {w : Width} {j : Nat} {l l' : Reg128} (hl : IsLane w j l l') :
    (feedbackLW w l).getLsbD j = feedbackL l' := by
  simp [feedbackLW, feedbackL, hl.tap]

theorem hInputW_lane {w : Width} {j : Nat} {l l' n n' : Reg128} (hl : IsLane w j l l') (hn : IsLane w j n n') (c : Config)
    (k : Nat) {a : Nat} (ha : a ≤ 96) : (hInputW w c l n k a).getLsbD j = hInput c l' n' k a := by
  unfold hInputW hInput
  split
  · exact hn.tap a ha
  · exact hl.tap a ha

theorem feedbackHW_lane {w : Width} {j : Nat} {l l' n n' : Reg128} (hl : IsLane w j l l') (hn : IsLane w j n n')
    (c : Config) : (feedbackHW w c l n).getLsbD j = feedbackH c l' n' := by
  simp [feedbackHW, feedbackH, hInputW_lane hl hn]

theorem ksbW_lane {w : Width} {j : Nat} {l l' n n' : Reg128} (hl : IsLane w j l l') (hn : IsLane w j n n') (c : Config) :
    (ksbW w c l n).getLsbD j = ksb c l' n' := by
  simp [ksbW, ksb, feedbackHW_lane hl hn, hl.tap, hn.tap]

/-! The registers after several generation clocks: shifts of the feedback bits (rules R62, R81, R82). -/

theorem genClocks_succ (c : Config) (k : Nat) (d : Datapath) : genClocks c (k + 1) d = genClock c (genClocks c k d) := by
  induction k generalizing d with
  | zero => rfl
  | succ k ih => exact ih (genClock c d)

@[simp] theorem genClocks_acc (c : Config) (k : Nat) (d : Datapath) : (genClocks c k d).acc = d.acc := by
  induction k generalizing d with
  | zero => rfl
  | succ k ih => exact ih (genClock c d)

@[simp] theorem genClocks_auth (c : Config) (k : Nat) (d : Datapath) : (genClocks c k d).auth = d.auth := by
  induction k generalizing d with
  | zero => rfl
  | succ k ih => exact ih (genClock c d)

/-! A register that takes in one bit at each clock: the argument for LFSR and for NFSR (rules R62, R63, R73). -/

/-- The register's value before clock `k` is `r k`, and clock `k` shifts bit `b k` in. -/
structure TakesIn (r : Nat → Reg128) (b : Nat → Bool) : Prop where
  succ : ∀ k, r (k + 1) = shiftIn1 (r k) (b k)

theorem TakesIn.eq_foldl {r : Nat → Reg128} {b : Nat → Bool} (h : TakesIn r b) (k : Nat) :
    r k = ((List.range k).map b).foldl shiftIn1 (r 0) := by
  induction k with
  | zero => rfl
  | succ k ih =>
    rw [List.range_succ, List.map_append, List.foldl_append, ← ih]
    exact h.succ k

/-- After `j` clocks a tap sees the first value's bit `j` places up; tap 96 reads the last lane, 31, at bit 127. -/
theorem TakesIn.isLane {r : Nat → Reg128} {b : Nat → Bool} (h : TakesIn r b) {w : Width} {j : Nat} (hj : j < w.bits) :
    IsLane w j (r 0) (r j) where
  tap a ha := by
    have hw := w.bits_le
    have hlast : a + j < 128 := by omega
    rw [h.eq_foldl j, foldl_shiftIn1_getLsbD _ _ (by omega), List.length_map, List.length_range, if_pos hlast, tapW,
      BitVec.getLsbD_extractLsb']
    simp only [hj, decide_true, Bool.true_and]

/-- `w` clocks are one shift of width `w` whose lanes are the bits taken in. -/
theorem TakesIn.shiftIn_eq {r : Nat → Reg128} {b : Nat → Bool} (h : TakesIn r b) {w : Width} {v : BitVec w.bits}
    (hv : ∀ j, j < w.bits → v.getLsbD j = b j) : shiftIn w (r 0) v = r w.bits := by
  have hbits : bitsOf v = (List.range w.bits).map b := List.map_congr_left fun j hj => hv j (List.mem_range.mp hj)
  rw [shiftIn_eq_foldl, hbits, ← h.eq_foldl]

/-! A batch against the serial clocks (rules R77, R85). -/

theorem genClocks_lfsr_takesIn (c : Config) (d : Datapath) :
    TakesIn (fun k => (genClocks c k d).lfsr) fun k => feedbackL (genClocks c k d).lfsr where
  succ k := congrArg Datapath.lfsr (genClocks_succ c k d)

theorem genClocks_nfsr_takesIn (c : Config) (d : Datapath) :
    TakesIn (fun k => (genClocks c k d).nfsr) fun k => feedbackF c (genClocks c k d).lfsr (genClocks c k d).nfsr where
  succ k := congrArg Datapath.nfsr (genClocks_succ c k d)

/-- Settles O38: lane `j` of every tap is that tap after `j` clocks, so the functions built of taps agree. -/
theorem batchedLanesAreLaterClocks : Obligations.BatchedLanesAreLaterClocks := by
  unfold Obligations.BatchedLanesAreLaterClocks
  intro w c d j hc hj
  have hl : IsLane w j d.lfsr (genClocks c j d).lfsr := (genClocks_lfsr_takesIn c d).isLane hj
  have hn : IsLane w j d.nfsr (genClocks c j d).nfsr := (genClocks_nfsr_takesIn c d).isLane hj
  exact ⟨ksbW_lane hl hn c, feedbackLW_lane hl, feedbackFW_lane hc hj hl hn, feedbackHW_lane hl hn c⟩

/-- Settles O39: each register takes in its feedback bits in order, and by O38 the lanes of the batch are those bits. -/
theorem batchedClockEqualsSerialClocks : Obligations.BatchedClockEqualsSerialClocks := by
  unfold Obligations.BatchedClockEqualsSerialClocks
  intro w c d hc
  have hlfsr : shiftIn w d.lfsr (feedbackLW w d.lfsr) = (genClocks c w.bits d).lfsr :=
    (genClocks_lfsr_takesIn c d).shiftIn_eq fun j hj => by
      obtain ⟨_, hL, _, _⟩ := batchedLanesAreLaterClocks w c d j hc hj
      exact hL
  have hnfsr : shiftIn w d.nfsr (feedbackFW w c d.lfsr d.nfsr) = (genClocks c w.bits d).nfsr :=
    (genClocks_nfsr_takesIn c d).shiftIn_eq fun j hj => by
      obtain ⟨_, _, hF, _⟩ := batchedLanesAreLaterClocks w c d j hc hj
      exact hF
  rw [genClockW, hlfsr, hnfsr, ← genClocks_acc c w.bits d, ← genClocks_auth c w.bits d]

end Sys2Proof.Machine
end

section
/-! PROOF. The engine's own rules: NOP and `update` (rules R81, R86). -/

namespace Sys2Proof.Machine

open Spec

/-- Settles O9: NOP outside INIT is the end of a step that outputs no bit; 0x01 has no decoding and so is an illegal word. -/
theorem nopChangesNothing : Obligations.NopChangesNothing := by
  unfold Obligations.NopChangesNothing
  have hw : decode 0x01#8 = none := by decide
  refine ⟨rfl, hw, fun s hp => ⟨?_, fun he => ?_⟩⟩
  · rw [exec_nop, if_neg hp, quiet_eq_noEffect]
    exact ⟨_, _, rfl⟩
  · obtain ⟨o, n, e⟩ := takeIllegal_outcome hp
    rw [if_neg he] at e
    exact ⟨o, n, (takeWord_of_illegal hw s).trans e⟩

/-- Settles O37: `update` is one `shift_in` of each cipher register. -/
theorem updateMovesBothRegisters : Obligations.UpdateMovesBothRegisters := by
  unfold Obligations.UpdateMovesBothRegisters
  exact fun lBit fBit d => ⟨fun _ hi => shiftIn1_getLsbD d.lfsr lBit hi, fun _ hi => shiftIn1_getLsbD d.nfsr fBit hi,
    rfl, rfl, by decide⟩

end Sys2Proof.Machine
end

section
/-! PROOF. The per-bit steps of a list of bits as keystream bits by clock and the MAC law, and the batched MAC law (rules R101 to
R107, R120, R121). -/

namespace Sys2Proof.Machine

open Spec

/-! Keystream bits by clock, and the MAC law beside the generation clocks (rules R82, R101, R103). -/

/-- The keystream bit of clock `k`, counted from the registers `d`: the even ones mask text, the odd ones are
authentication bits (rule R103). -/
def ksbAt (c : Config) (d : Datapath) (k : Nat) : Bool := (clock c (genClocks c k d)).y

theorem genClocks_add (c : Config) (k l : Nat) (d : Datapath) : genClocks c (k + l) d = genClocks c l (genClocks c k d) := by
  induction k generalizing d with
  | zero => rw [Nat.zero_add]; rfl
  | succ k ih => rw [Nat.succ_add]; exact ih (genClock c d)

theorem ksbAt_genClocks (c : Config) (k l : Nat) (d : Datapath) : ksbAt c (genClocks c k d) l = ksbAt c d (k + l) := by
  rw [ksbAt, ksbAt, genClocks_add]

/-- A generation clock works on LFSR and NFSR, the MAC law on ACC and AUTH. -/
theorem genClocks_authenticate (c : Config) (k : Nat) (m a : Bool) (d : Datapath) :
    genClocks c k (authenticate m a d) = authenticate m a (genClocks c k d) := by
  induction k generalizing d with
  | zero => rfl
  | succ k ih => exact ih (genClock c d)

theorem ksbAt_authenticate (c : Config) (m a : Bool) (d : Datapath) (k : Nat) :
    ksbAt c (authenticate m a d) k = ksbAt c d k := by
  rw [ksbAt, genClocks_authenticate]; rfl

/-- The MAC law applied to each message bit and its odd keystream bit in turn (rule R101). -/
def macSteps (ps : List (Bool × Bool)) (d : Datapath) : Datapath := ps.foldl (fun e p => authenticate p.1 p.2 e) d

@[simp] theorem macSteps_cons (p : Bool × Bool) (ps : List (Bool × Bool)) (d : Datapath) :
    macSteps (p :: ps) d = macSteps ps (authenticate p.1 p.2 d) := rfl

/-! The per-bit steps of a list of bits (rules R103, R104, R120, R121). -/

theorem evenBit_eq_ksbAt (c : Config) (d : Datapath) : evenBit c d = ksbAt c d 0 := rfl

/-- A per-bit step is the MAC law with the keystream bit of clock 1, and two generation clocks. -/
theorem perBit_eq (c : Config) (m : Bool) (d : Datapath) :
    perBit c m d = genClocks c 2 (authenticate m (ksbAt c d 1) d) := rfl

theorem ksbAt_perBit (c : Config) (m : Bool) (d : Datapath) (k : Nat) : ksbAt c (perBit c m d) k = ksbAt c d (k + 2) := by
  rw [perBit_eq, ksbAt_genClocks, ksbAt_authenticate, Nat.add_comm]

/-- Message bit j meets the keystream bit of clock `2j + 1`. -/
theorem authBits_eq_macSteps (c : Config) (ms : List Bool) (d : Datapath) :
    authBits c ms d = macSteps (ms.mapIdx fun j m => (m, ksbAt c d (2 * j + 1))) (genClocks c (2 * ms.length) d) := by
  induction ms generalizing d with
  | nil => rfl
  | cons m ms ih =>
    have hregs : genClocks c (2 * ms.length) (perBit c m d) =
        authenticate m (ksbAt c d 1) (genClocks c (2 * (ms.length + 1)) d) := by
      rw [perBit_eq, ← genClocks_add, genClocks_authenticate, Nat.mul_succ, Nat.add_comm]
    rw [authBits, ih, hregs, List.mapIdx_cons, macSteps_cons, List.length_cons]
    simp only [ksbAt_perBit, Nat.mul_succ, Nat.mul_zero, Nat.zero_add, Nat.add_right_comm _ 1 2]

/-- A text's output bits: text bit j is masked with the keystream bit of clock `2j`, in both directions (rules R120, R121). -/
def maskText (c : Config) (d : Datapath) (bits : List Bool) : List Bool := bits.mapIdx fun j b => b ^^ ksbAt c d (2 * j)

/-- The later bits are masked alike whatever bit the first step authenticates. -/
theorem maskText_cons (c : Config) (m b : Bool) (bits : List Bool) (d : Datapath) :
    maskText c d (b :: bits) = (b ^^ evenBit c d) :: maskText c (perBit c m d) bits := by
  simp [maskText, List.mapIdx_cons, ksbAt_perBit, evenBit_eq_ksbAt, Nat.mul_add]

theorem encBits_eq (c : Config) (ps : List Bool) (d : Datapath) : encBits c ps d = (maskText c d ps, authBits c ps d) := by
  induction ps generalizing d with
  | nil => rfl
  | cons p ps ih => rw [encBits, ih, maskText_cons c p, authBits]

theorem decBits_eq (c : Config) (qs : List Bool) (d : Datapath) :
    decBits c qs d = (maskText c d qs, authBits c (maskText c d qs) d) := by
  induction qs generalizing d with
  | nil => rfl
  | cons q qs ih => rw [decBits, ih, maskText_cons c (q ^^ evenBit c d), authBits]

/-! The batched MAC law (rule R107). -/

theorem authLane_zero (auth : Reg64) {n : Nat} (a : BitVec n) : authLane auth a 0 = auth := by
  simp [authLane]

theorem authLane_getLsbD (auth : Reg64) {n j : Nat} (a : BitVec n) (hj : j ≤ 64) {i : Nat} (hi : i < 64) :
    (authLane auth a j).getLsbD i = if i + j < 64 then auth.getLsbD (i + j) else a.getLsbD (i + j - 64) := by
  rw [authLane, shiftRight_or_shiftLeft_getLsbD auth _ hj hi]
  split
  case isTrue => rfl
  case isFalse h =>
    rw [BitVec.getLsbD_setWidth, BitVec.getLsbD_setWidth, show i - (64 - j) = i + j - 64 by omega]
    simp [show i + j - 64 < 64 by omega, show i + j - 64 < j by omega]

/-- `AUTH_(j+1)` is `AUTH_j` with odd bit j shifted in. -/
theorem shiftIn64_authLane (auth : Reg64) {n j : Nat} (a : BitVec n) (hj : j < 64) :
    shiftIn64 (authLane auth a j) (a.getLsbD j) = authLane auth a (j + 1) := by
  refine BitVec.eq_of_getLsbD_eq fun i hi => ?_
  rw [shiftIn64_getLsbD _ _ hi, authLane_getLsbD auth a hj hi]
  split
  case isTrue h =>
    subst h
    rw [if_neg (by omega), show 63 + (j + 1) - 64 = j by omega]
  case isFalse h => rw [authLane_getLsbD auth a hj.le (by omega), Nat.add_assoc, Nat.add_comm 1 j]

/-- After all the odd bits of a batch, AUTH is the batched shift. -/
theorem authLane_bits (w : Width) (auth : Reg64) (a : BitVec w.bits) : authLane auth a w.bits = shiftIn64W w auth a := by
  rw [authLane, shiftIn64W, BitVec.setWidth_eq]

/-- The batched law stopped after `k` of its lanes. -/
def macLanes {n : Nat} (m a : BitVec n) (k : Nat) (d : Datapath) : Datapath :=
  { d with
    acc := (List.range k).foldl (fun acc j => if m.getLsbD j then acc ^^^ authLane d.auth a j else acc) d.acc
    auth := authLane d.auth a k }

theorem authenticateW_eq_macLanes (w : Width) (m a : BitVec w.bits) (d : Datapath) :
    authenticateW w m a d = macLanes m a w.bits d := by
  rw [authenticateW, macLanes, authLane_bits]

theorem macLanes_zero {n : Nat} (m a : BitVec n) (d : Datapath) : macLanes m a 0 d = d := by
  rw [macLanes, authLane_zero]; rfl

theorem macLanes_succ {n : Nat} (m a : BitVec n) {k : Nat} (hk : k < 64) (d : Datapath) :
    macLanes m a (k + 1) d = authenticate (m.getLsbD k) (a.getLsbD k) (macLanes m a k d) := by
  rw [macLanes, ← shiftIn64_authLane d.auth a hk, List.range_succ, List.foldl_append]
  rfl

theorem macLanes_eq_macSteps {n : Nat} (m a : BitVec n) (d : Datapath) {k : Nat} (hk : k ≤ 64) :
    macLanes m a k d = macSteps ((List.range k).map fun j => (m.getLsbD j, a.getLsbD j)) d := by
  induction k with
  | zero => exact macLanes_zero m a d
  | succ k ih =>
    rw [macLanes_succ m a hk, ih (by omega), List.range_succ, List.map_append, macSteps, macSteps, List.foldl_append]
    rfl

/-- The batched MAC law is the MAC law applied lane by lane (rule R107). -/
theorem authenticateW_eq_macSteps (w : Width) (m a : BitVec w.bits) (d : Datapath) :
    authenticateW w m a d = macSteps ((bitsOf m).zip (bitsOf a)) d := by
  have hw := w.bits_le
  rw [authenticateW_eq_macLanes, macLanes_eq_macSteps m a d (by omega), bitsOf, bitsOf, List.zip_map']

end Sys2Proof.Machine
end

section
/-! PROOF. A stride of text bits against the serial text commands (rules R55, R85, R103, R107). -/

namespace Sys2Proof.Machine

open Spec

/-! The lanes of two batches (rule R85). -/

theorem packBits_getLsbD (f : Nat → Bool) {n i : Nat} (hi : i < n) : (packBits n f).getLsbD i = f i := by
  induction n with
  | zero => omega
  | succ n ih =>
    rw [packBits, BitVec.getLsbD_cons]
    split
    case isTrue h => rw [h]
    case isFalse h => exact ih (by omega)

/-- Two batches of engine clocks are `w` pairs of serial ones. -/
theorem genClockW_twice {w : Width} {c : Config} {d : Datapath} (hc : c.tapsInRange = true) :
    genClockW w c (genClockW w c d) = genClocks c (2 * w.bits) d := by
  rw [batchedClockEqualsSerialClocks w c d hc, batchedClockEqualsSerialClocks w c _ hc, ← genClocks_add, ← Nat.two_mul]

/-- Lane `j` of the even or the odd keystream bits of two batches. -/
theorem lanes_getLsbD {w : Width} {c : Config} {d : Datapath} (hc : c.tapsInRange = true) {odd j : Nat} (ho : odd ≤ 1)
    (hj : j < w.bits) :
    (lanes w (ksbW w c d.lfsr d.nfsr) (ksbW w c (genClockW w c d).lfsr (genClockW w c d).nfsr) odd).getLsbD j =
      ksbAt c d (2 * j + odd) := by
  have hlane : ∀ (e : Datapath) (k : Nat), k < w.bits → (ksbW w c e.lfsr e.nfsr).getLsbD k = ksbAt c e k := fun e k hk => by
    obtain ⟨hksb, _⟩ := batchedLanesAreLaterClocks w c e k hc hk
    exact hksb
  rw [lanes, packBits_getLsbD _ hj]
  split
  case isTrue h => exact hlane d _ h
  case isFalse h =>
    rw [hlane _ _ (by omega), batchedClockEqualsSerialClocks w c d hc, ksbAt_genClocks, Nat.add_sub_cancel' (by omega)]

/-! A stride of text bits (rules R55, R85). -/

theorem bitsOf_xor {n : Nat} {b y : BitVec n} {f : Nat → Bool} (hy : ∀ j, j < n → y.getLsbD j = f j) :
    bitsOf (b ^^^ y) = (bitsOf b).mapIdx fun j x => x ^^ f j := by
  refine List.ext_getElem (by simp [bitsOf]) fun j hj _ => ?_
  rw [bitsOf_length] at hj
  simp [bitsOf, hy j hj]

theorem zip_bitsOf {n : Nat} {m a : BitVec n} {f : Nat → Bool} (ha : ∀ j, j < n → a.getLsbD j = f j) :
    (bitsOf m).zip (bitsOf a) = (bitsOf m).mapIdx fun j x => (x, f j) := by
  refine List.ext_getElem (by simp [bitsOf]) fun j hj _ => ?_
  rw [List.length_zip, bitsOf_length, bitsOf_length, Nat.min_self] at hj
  simp [bitsOf, ha j hj]

theorem textStride_bits {w : Width} {c : Config} (hc : c.tapsInRange = true) (decrypt : Bool) (b : BitVec w.bits)
    (d : Datapath) : bitsOf (textStride w c decrypt b d).1 = maskText c d (bitsOf b) :=
  bitsOf_xor fun _ hj => lanes_getLsbD hc (by decide) hj

/-- The registers after a stride are those after the per-bit steps of its plaintext bits. -/
theorem textStride_registers {w : Width} {c : Config} (hc : c.tapsInRange = true) (decrypt : Bool) (b : BitVec w.bits)
    (d : Datapath) :
    (textStride w c decrypt b d).2 = authBits c (bitsOf (if decrypt then (textStride w c decrypt b d).1 else b)) d := by
  rw [authBits_eq_macSteps, bitsOf_length, ← zip_bitsOf fun _ hj => lanes_getLsbD hc le_rfl hj, ← genClockW_twice hc,
    ← authenticateW_eq_macSteps]
  rfl

/-- Settles O42: the even lanes mask the text as the even clocks do, and the odd lanes authenticate the plaintext bits as the
odd clocks do. -/
theorem strideTextEqualsSerialText : Obligations.StrideTextEqualsSerialText := by
  unfold Obligations.StrideTextEqualsSerialText
  intro w c decrypt b d hc
  have hbits := textStride_bits hc decrypt b d
  have hregs := textStride_registers hc decrypt b d
  cases decrypt
  case false => rw [if_neg Bool.false_ne_true, encBits_eq]; exact ⟨hbits, hregs⟩
  case true => rw [if_pos rfl, decBits_eq]; exact ⟨hbits, hregs.trans (by rw [if_pos rfl, hbits])⟩

end Sys2Proof.Machine
end

section
/-! PROOF. The initialiser as steps of the machine: what one step leaves of the engine, and the run to AD (rules R16, R90, R92,
R97, R99). -/

namespace Sys2Proof.Machine

open Spec

/-! Runs. -/

/-- A run takes its first step and goes on from there. -/
theorem run_succ_eq_step_andThen (n : Nat) (s : State) :
    Sys2Proof.core.run (n + 1) s = andThen (step s) (Sys2Proof.core.run n) := by
  have hstep : Sys2Proof.core.step s = step s := rfl
  simp only [Host.Core.run, hstep]
  cases step s <;> rfl

/-- A run of one step more takes its last step where the shorter run ends. -/
theorem run_succ (n : Nat) (s : State) : Sys2Proof.core.run (n + 1) s = andThen (Sys2Proof.core.run n s) step := by
  induction n generalizing s with
  | zero =>
    rw [run_succ_eq_step_andThen]
    change andThen (step s) _ = step s
    cases step s <;> rfl
  | succ n ih =>
    rw [run_succ_eq_step_andThen, run_succ_eq_step_andThen]
    cases step s with
    | next t => exact ih t
    | fault r => rfl
    | refused r => rfl

/-- `u` is what `n` initialisation steps make of `s` while the host makes no move (rules R92, R97). -/
structure InitialisedFor (n : Nat) (s u : State) : Prop where
  dp : u.dp = initDatapathSteps s.cfg s.k n s.ctr.toNat s.dp
  ctr : u.ctr = s.ctr + BitVec.ofNat 9 n
  phase : u.phase = if s.ctr.toNat + n < 512 then .init else .ad
  k : u.k = s.k
  cfg : u.cfg = s.cfg
  rst : u.rst = false
  driven : u.driven
  host : u.host = []

theorem initialisedFor_zero {s : State} (hr : s.rst = false) (hp : s.phase = .init) (hd : s.driven) (hh : s.host = []) :
    InitialisedFor 0 s s where
  dp := rfl
  ctr := (BitVec.add_zero _).symm
  phase := hp.trans (if_pos s.ctr.isLt).symm
  k := rfl
  cfg := rfl
  rst := hr
  driven := hd
  host := hh

/-- Before `ctr` has run through, its number is the number of the step. -/
theorem InitialisedFor.ctr_toNat {n : Nat} {s u : State} (h : InitialisedFor n s u) (hn : s.ctr.toNat + n < 512) :
    u.ctr.toNat = s.ctr.toNat + n := by
  rw [h.ctr, BitVec.toNat_add, BitVec.toNat_ofNat]
  omega

/-- With the host at rest a step in INIT is one initialisation step and nothing else. -/
theorem step_init_no_host {s : State} (hr : s.rst = false) (hp : s.phase = .init) (hd : s.driven) (hh : s.host = []) :
    step s = .next { initStep s with rst := false } :=
  (step_init hr hp).trans (drivePorts_no_host (s := initStep s) hd hh)

/-- One step more, while the phase is INIT. -/
theorem InitialisedFor.succ {n : Nat} {s u : State} (h : InitialisedFor n s u) (hn : s.ctr.toNat + n < 512) :
    ∃ v, step u = .next v ∧ InitialisedFor (n + 1) s v := by
  have hp : u.phase = .init := h.phase.trans (if_pos hn)
  have hctr := h.ctr_toNat hn
  refine ⟨_, step_init_no_host h.rst hp h.driven h.host, ?_, ?_, ?_, h.k, h.cfg, rfl, h.driven, h.host⟩
  · rw [initDatapathSteps_succ, ← h.dp, ← hctr, ← h.cfg, ← h.k]; rfl
  · rw [BitVec.ofNat_add, ← BitVec.add_assoc, ← h.ctr]; rfl
  · show (if u.ctr.toNat = 511 then Phase.ad else .init) = _
    rw [hctr]
    split
    · rw [if_neg (by omega)]
    · rw [if_pos (by omega)]

/-- A run in INIT goes through the steps from `ctr` on, and is in AD after step 511. -/
theorem run_initialises {s : State} (hr : s.rst = false) (hp : s.phase = .init) (hd : s.driven) (hh : s.host = []) {n : Nat}
    (hn : s.ctr.toNat + n ≤ 512) : ∃ u, Sys2Proof.core.run n s = .next u ∧ InitialisedFor n s u := by
  induction n with
  | zero => exact ⟨s, rfl, initialisedFor_zero hr hp hd hh⟩
  | succ n ih =>
    obtain ⟨u, e, hu⟩ := ih (by omega)
    obtain ⟨v, ev, hv⟩ := hu.succ (by omega)
    exact ⟨v, (run_succ n s).trans ((congrArg (andThen · step) e).trans ev), hv⟩

/-- Settles O31, by induction over the steps with the registers, `ctr` and phase after each. -/
theorem initialisationAlwaysEnds : Obligations.InitialisationAlwaysEnds := by
  unfold Obligations.InitialisationAlwaysEnds
  intro s hr hp hd hh
  have hlt : s.ctr.toNat < 512 := s.ctr.isLt
  refine ⟨?_, fun m hm => ?_⟩
  · obtain ⟨t, e, ht⟩ := run_initialises hr hp hd hh (n := 512 - s.ctr.toNat) (by omega)
    have hctr : t.ctr = 0 := by
      rw [ht.ctr]
      bv_omega
    exact ⟨t, e, ht.phase.trans (if_neg (by omega)), hctr, ht.dp⟩
  · obtain ⟨u, e, hu⟩ := run_initialises hr hp hd hh (n := m) (by omega)
    exact ⟨u, e, hu.phase.trans (if_pos (by omega)), hu.ctr_toNat (by omega)⟩

end Sys2Proof.Machine
end

section
/-! PROOF. LOAD, and one step of the initialiser in each sub-phase (rules R91 to R97). -/

namespace Sys2Proof.Machine

open Spec

/-! LOAD (rule R91). -/

/-- A command other than CLEAR is refused wherever the table of rule R52 has no phase for it (rules R52, R53). -/
theorem elsewhereRefused {i : Instr} {s : State} {admitted : Prop} (hi : i ≠ .clear)
    (h : ∀ p, phaseAfter i s.phase s.dir = some p → admitted) : ElsewhereRefused i admitted s := by
  refine ⟨fun hp he hn => ?_, fun he => ⟨_, _, (exec_error he hi).trans (congrArg _ (quiet_eq_noEffect s))⟩⟩
  have hnone : phaseAfter i s.phase s.dir = none := Option.eq_none_iff_forall_ne_some.mpr fun p hp => hn (h p hp)
  exact ⟨_, _, (exec_refused hp he hnone).trans (congrArg _ (takeFault_eq_faultState _ s))⟩

/-- The pad is 31 ones under a zero (rule R35). -/
theorem lfsrPad_getLsbD (i : Nat) : lfsrPad.getLsbD i = decide (i < 31) := by
  rw [show lfsrPad = (BitVec.allOnes 31).setWidth 32 by decide, BitVec.getLsbD_setWidth, BitVec.getLsbD_allOnes,
    ← Bool.decide_and]
  exact decide_eq_decide.mpr (by omega)

/-- The nonce lies in bits 0 to 95 of the loaded LFSR, ones in bits 96 to 126, and bit 127 is zero (rules R35, R91). -/
theorem lfsrPad_append_getLsbD (nonce : NonceWord) (i : Nat) :
    (lfsrPad ++ nonce).getLsbD i = if i < 96 then nonce.getLsbD i else decide (i < 127) := by
  rw [BitVec.getLsbD_append, lfsrPad_getLsbD]
  split
  · rfl
  · exact decide_eq_decide.mpr (by omega)

/-- Settles O10: where it is admitted LOAD has its effect, and the loaded LFSR is read bit by bit. -/
theorem loadStartsATransaction : Obligations.LoadStartsATransaction := by
  unfold Obligations.LoadStartsATransaction
  refine ⟨rfl, rfl, fun d s => ⟨fun h => ?_, elsewhereRefused nofun fun p hp => (phaseAfter_load.mp hp).1⟩⟩
  refine ⟨_, _, lfsrPad ++ s.nonce, exec_admitted (phaseAfter_load.mpr ⟨h, rfl⟩), fun i hi => ?_, fun i hlo hhi => ?_, ?_⟩
  · rw [lfsrPad_append_getLsbD, if_pos hi]
  · rw [lfsrPad_append_getLsbD, if_neg (by omega), decide_eq_true (by omega)]
  · rw [lfsrPad_append_getLsbD]; rfl

/-! The step of each sub-phase (rules R92 to R96). -/

theorem initDatapathStep_A {t : Nat} (h : t < 320) (c : Config) (k : Reg128) (d : Datapath) :
    initDatapathStep c k t d = initStepA c d := if_pos h

theorem initDatapathStep_B {t : Nat} (hlo : 320 ≤ t) (hhi : t < 384) (c : Config) (k : Reg128) (d : Datapath) :
    initDatapathStep c k t d = initStepB c k (t - 320) d := by
  rw [initDatapathStep, if_neg (by omega), if_pos hhi]

theorem initDatapathStep_C {t : Nat} (hlo : 384 ≤ t) (hhi : t < 448) (c : Config) (k : Reg128) (d : Datapath) :
    initDatapathStep c k t d = initStepC c (t - 384) d := by
  rw [initDatapathStep, if_neg (by omega), if_neg (by omega), if_pos hhi]

theorem initDatapathStep_D {t : Nat} (h : 448 ≤ t) (c : Config) (k : Reg128) (d : Datapath) :
    initDatapathStep c k t d = initStepD c (t - 448) d := by
  rw [initDatapathStep, if_neg (by omega), if_neg (by omega), if_neg (by omega)]

/-- What a step of the machine in INIT leaves, `d` the registers it gives (rules R16, R90, R97). -/
structure InitialisesTo (d : Datapath) (s t : State) : Prop where
  engine : t.engine = initialised d t s
  mem : s.host = [] → t.mem = s.mem

theorem InitialisesTo.ctr {d : Datapath} {s t : State} (h : InitialisesTo d s t) : t.ctr = s.ctr + 1 :=
  congrArg EngineView.ctr h.engine

theorem InitialisesTo.phase {d : Datapath} {s t : State} (h : InitialisesTo d s t) :
    t.phase = if s.ctr.toNat = 511 then .ad else .init := congrArg EngineView.phase h.engine

/-- A step before step 511 stays in INIT and counts up by one (rules R16, R92). -/
theorem InitialisesTo.continues {d : Datapath} {s t : State} (h : InitialisesTo d s t) (hlt : s.ctr.toNat < 511) :
    t.phase = .init ∧ t.ctr.toNat = s.ctr.toNat + 1 := by
  refine ⟨h.phase.trans (if_neg (by omega)), ?_⟩
  rw [h.ctr]
  bv_omega

/-- Step 511 ends the initialisation (rule R97). -/
theorem InitialisesTo.ends {d : Datapath} {s t : State} (h : InitialisesTo d s t) (hlast : s.ctr.toNat = 511) :
    t.phase = .ad ∧ t.ctr = 0 ∧ t.cmdReady = true := by
  have hp : t.phase = .ad := h.phase.trans (if_pos hlast)
  refine ⟨hp, ?_, (cmdReady_iff t).mpr (by simp [hp])⟩
  rw [h.ctr]
  bv_omega

/-- A step in INIT is an initialisation step, whatever the host does next. -/
theorem step_initialisesTo {s : State} (hr : s.rst = false) (hp : s.phase = .init) (hd : s.driven) :
    ∃ t, step s = .next t ∧ InitialisesTo (initDatapathStep s.cfg s.k s.ctr.toNat s.dp) s t := by
  obtain ⟨t, e, heng, _, hmem⟩ := commandIsHeldDuringInit s hr hp hd
  have hdout : t.dout = (initStep s).dout := congrArg EngineView.dout heng
  exact ⟨t, e, by rw [heng, initialised, hdout]; rfl, hmem⟩

/-- Settles O27: `ctr` selects sub-phase A. -/
theorem initialisationStepA : Obligations.InitialisationStepA := by
  unfold Obligations.InitialisationStepA
  intro s hr hp hd hhi
  obtain ⟨t, e, ht⟩ := step_initialisesTo hr hp hd
  rw [initDatapathStep_A (by omega)] at ht
  obtain ⟨hphase, hctr⟩ := ht.continues (by omega)
  exact ⟨t, e, hphase, hctr, ht.engine, ht.mem⟩

/-- Settles O28: `ctr` selects sub-phase B. -/
theorem initialisationStepB : Obligations.InitialisationStepB := by
  unfold Obligations.InitialisationStepB
  intro s hr hp hd hlo hhi
  obtain ⟨t, e, ht⟩ := step_initialisesTo hr hp hd
  rw [initDatapathStep_B hlo (by omega)] at ht
  obtain ⟨hphase, hctr⟩ := ht.continues (by omega)
  exact ⟨t, e, hphase, hctr, ht.engine, ht.mem⟩

/-- Settles O29: `ctr` selects sub-phase C, whose write is one `set_bit` on ACC. -/
theorem initialisationStepC : Obligations.InitialisationStepC := by
  unfold Obligations.InitialisationStepC
  intro s hr hp hd hlo hhi
  obtain ⟨t, e, ht⟩ := step_initialisesTo hr hp hd
  rw [initDatapathStep_C hlo (by omega)] at ht
  obtain ⟨hphase, hctr⟩ := ht.continues (by omega)
  exact ⟨t, _, e, hphase, hctr, fun b hb => setBit_getLsbD s.dp.acc _ hb, ht.engine, ht.mem⟩

/-- A command's effect takes nothing from `K`: LOAD overwrites it and the others carry it along (rule R97). -/
theorem effect_k_irrelevant (i : Instr) (s : State) (k : Reg128) :
    ∃ k', effect i { s with k := k } = { effect i s with k := k' } := by
  cases i with
  | load d => exact ⟨s.key, rfl⟩
  | _ => exact ⟨k, rfl⟩

/-- No command reads `K` (rule R97). -/
theorem exec_k_irrelevant (i : Instr) (s : State) (k : Reg128) :
    ∃ t k', exec i s = .next t ∧ exec i { s with k := k } = .next { t with k := k' } := by
  rcases exec_cases i s with ⟨h, e⟩ | ⟨h, hi, e⟩ | ⟨h, rfl, e⟩ | ⟨p, h, e⟩ | ⟨hi, he, h, e⟩
  · exact ⟨s, k, e, exec_init h⟩
  · exact ⟨s.quiet, k, e, exec_error h hi⟩
  · exact ⟨returnToIdle s, k, e, exec_clear (s := { s with k := k }) (by simp [h])⟩
  · obtain ⟨k', he⟩ := effect_k_irrelevant i s k
    exact ⟨effect i s, k', e, (exec_admitted (s := { s with k := k }) h).trans (congrArg _ he)⟩
  · exact ⟨_, k, e, exec_refused (s := { s with k := k }) hi he h⟩

/-- Settles O30: `ctr` selects sub-phase D, whose write is one `set_bit` on AUTH, and 511 is its last step. -/
theorem initialisationStepD : Obligations.InitialisationStepD := by
  unfold Obligations.InitialisationStepD
  refine ⟨fun s hr hp hd hlo => ?_, exec_k_irrelevant⟩
  obtain ⟨t, e, ht⟩ := step_initialisesTo hr hp hd
  rw [initDatapathStep_D hlo] at ht
  exact ⟨t, _, e, ht.ends, ht.continues, fun b hb => setBit_getLsbD s.dp.auth _ hb, ht.engine, ht.mem⟩

end Sys2Proof.Machine
end

section
/-! PROOF. A batch of initialisation steps against the serial ones (rules R65, R92 to R98). -/

namespace Sys2Proof.Machine

/-! Each register through the serial steps: LFSR and NFSR take one bit in at every step, ACC and AUTH have at most one bit
written. -/

/-- The bit a register takes in at step `t`: its feedback bit `x`, in A and B with the keystream bit `y`, in B with a key bit
(rules R93 to R96). -/
def bitIn (t : Nat) (x y key : Bool) : Bool := if t < 320 then x ^^ y else if t < 384 then x ^^ y ^^ key else x

/-- The bit that step `t` shifts into LFSR (rules R93 to R96). -/
def lfsrBitIn (c : Config) (k : Reg128) (t : Nat) (d : Datapath) : Bool :=
  bitIn t (clock c d).s (clock c d).y (k.getLsbD (t - 320 + 64))

/-- The bit that step `t` shifts into NFSR (rules R93 to R96). -/
def nfsrBitIn (c : Config) (k : Reg128) (t : Nat) (d : Datapath) : Bool :=
  bitIn t (clock c d).b (clock c d).y (k.getLsbD (t - 320))

theorem initDatapathStep_shifts (c : Config) (k : Reg128) (t : Nat) (d : Datapath) :
    (initDatapathStep c k t d).lfsr = shiftIn1 d.lfsr (lfsrBitIn c k t d) ∧
      (initDatapathStep c k t d).nfsr = shiftIn1 d.nfsr (nfsrBitIn c k t d) := by
  unfold initDatapathStep lfsrBitIn nfsrBitIn bitIn
  split
  · exact ⟨rfl, rfl⟩
  split
  · exact ⟨rfl, rfl⟩
  split <;> exact ⟨rfl, rfl⟩

theorem initDatapathSteps_lfsr_takesIn (c : Config) (k : Reg128) (t : Nat) (d : Datapath) :
    TakesIn (fun n => (initDatapathSteps c k n t d).lfsr) fun n => lfsrBitIn c k (t + n) (initDatapathSteps c k n t d) where
  succ n := by
    rw [initDatapathSteps_succ]
    exact (initDatapathStep_shifts c k _ _).1

theorem initDatapathSteps_nfsr_takesIn (c : Config) (k : Reg128) (t : Nat) (d : Datapath) :
    TakesIn (fun n => (initDatapathSteps c k n t d).nfsr) fun n => nfsrBitIn c k (t + n) (initDatapathSteps c k n t d) where
  succ n := by
    rw [initDatapathSteps_succ]
    exact (initDatapathStep_shifts c k _ _).2

/-- `a n` is a register after the first `n` steps from step `t` on; step `t + n` writes the bit `y n` to bit
`t + n - base` of it, if there is one, and nothing else (rules R95, R96). -/
structure WritesBits (base t : Nat) (a : Nat → Reg64) (y : Nat → Bool) : Prop where
  succ : ∀ n i, i < 64 → (a (n + 1)).getLsbD i = if t + n = base + i then y n else (a n).getLsbD i

/-- A bit holds what its own step has written, and before that what it held. -/
theorem WritesBits.getLsbD {base t : Nat} {a : Nat → Reg64} {y : Nat → Bool} (h : WritesBits base t a y) (n : Nat) {i : Nat}
    (hi : i < 64) :
    (a n).getLsbD i = if t ≤ base + i ∧ base + i < t + n then y (base + i - t) else (a 0).getLsbD i := by
  induction n with
  | zero => rw [if_neg (by omega)]
  | succ n ih =>
    rw [h.succ n i hi, ih]
    split
    case isTrue hw => rw [if_pos (by omega), ← hw, Nat.add_sub_cancel_left]
    case isFalse hw => simp only [show base + i < t + (n + 1) ↔ base + i < t + n by omega]

theorem WritesBits.eq_first {base t n : Nat} {a : Nat → Reg64} {y : Nat → Bool} (h : WritesBits base t a y)
    (hout : t + n ≤ base ∨ base + 64 ≤ t) : a n = a 0 :=
  BitVec.eq_of_getLsbD_eq fun i hi => (h.getLsbD n hi).trans (if_neg (by omega))

/-- The batched write puts a window of bits in place (rule R98). -/
theorem setWindow64_getLsbD (w : Width) (a : Reg64) (i : Nat) (v : BitVec w.bits) {j : Nat} (hj : j < 64) :
    (setWindow64 w a i v).getLsbD j = if i ≤ j ∧ j < i + w.bits then v.getLsbD (j - i) else a.getLsbD j := by
  rw [setWindow64, BitVec.getLsbD_or, BitVec.getLsbD_and, BitVec.getLsbD_not, BitVec.getLsbD_shiftLeft,
    BitVec.getLsbD_shiftLeft, BitVec.getLsbD_setWidth, BitVec.getLsbD_setWidth, BitVec.getLsbD_allOnes]
  by_cases hlo : i ≤ j
  · by_cases hhi : j < i + w.bits
    · simp [hj, hlo, hhi, show ¬ j < i by omega, show j - i < 64 by omega, show j - i < w.bits by omega]
    · have hv : v.getLsbD (j - i) = false := BitVec.getLsbD_of_ge v _ (by omega)
      simp [hj, hhi, hv, show ¬ j - i < w.bits by omega]
  · simp [hj, hlo, show j < i by omega]

/-- `w` steps that each write their bit are one write of a window. -/
theorem WritesBits.setWindow64_eq {base t : Nat} {a : Nat → Reg64} {y : Nat → Bool} (h : WritesBits base t a y) {w : Width}
    {v : BitVec w.bits} (hv : ∀ j, j < w.bits → v.getLsbD j = y j) (hbase : base ≤ t) :
    setWindow64 w (a 0) (t - base) v = a w.bits := by
  refine BitVec.eq_of_getLsbD_eq fun i hi => ?_
  rw [setWindow64_getLsbD w _ _ v hi, h.getLsbD w.bits hi]
  split
  case isTrue hin => rw [if_pos (by omega), hv _ (by omega), show i - (t - base) = base + i - t by omega]
  case isFalse hout => rw [if_neg (by omega)]

theorem initDatapathSteps_acc_writesBits (c : Config) (k : Reg128) (t : Nat) (d : Datapath) :
    WritesBits 384 t (fun n => (initDatapathSteps c k n t d).acc) fun n => (clock c (initDatapathSteps c k n t d)).y where
  succ n i hi := by
    rw [initDatapathSteps_succ]
    exact initDatapathStep_acc c k _ _ hi

theorem initDatapathSteps_auth_writesBits (c : Config) (k : Reg128) (t : Nat) (d : Datapath) :
    WritesBits 448 t (fun n => (initDatapathSteps c k n t d).auth) fun n => (clock c (initDatapathSteps c k n t d)).y where
  succ n i hi := by
    rw [initDatapathSteps_succ]
    exact initDatapathStep_auth c k _ _ hi

/-! The lanes of a batch. -/

/-- The lanes of the batched functions are the bits of the clocks of the serial steps, whatever those steps shift in. -/
structure BatchLanes (w : Width) (c : Config) (d : Datapath) (e : Nat → Datapath) : Prop where
  y : ∀ j, j < w.bits → (ksbW w c d.lfsr d.nfsr).getLsbD j = (clock c (e j)).y
  s : ∀ j, j < w.bits → (feedbackLW w d.lfsr).getLsbD j = (clock c (e j)).s
  b : ∀ j, j < w.bits → (feedbackFW w c d.lfsr d.nfsr).getLsbD j = (clock c (e j)).b

theorem initDatapathSteps_batchLanes (w : Width) {c : Config} (hc : c.tapsInRange = true) (k : Reg128) (t : Nat)
    (d : Datapath) : BatchLanes w c d fun n => initDatapathSteps c k n t d := by
  have hl : ∀ j, j < w.bits → IsLane w j d.lfsr (initDatapathSteps c k j t d).lfsr := fun _ =>
    (initDatapathSteps_lfsr_takesIn c k t d).isLane
  have hn : ∀ j, j < w.bits → IsLane w j d.nfsr (initDatapathSteps c k j t d).nfsr := fun _ =>
    (initDatapathSteps_nfsr_takesIn c k t d).isLane
  exact ⟨fun j hj => ksbW_lane (hl j hj) (hn j hj) c, fun j hj => feedbackLW_lane (hl j hj),
    fun j hj => feedbackFW_lane hc hj (hl j hj) (hn j hj)⟩

theorem tapW_getLsbD {w : Width} (r : Reg128) (a : Nat) {j : Nat} (hj : j < w.bits) :
    (tapW w r a).getLsbD j = r.getLsbD (a + j) := by
  simp [tapW, hj]

/-- A batch lies inside one sub-phase: the sub-phases begin at multiples of every stride (rule R98). -/
theorem lane_lt_iff {w : Width} {t j bound : Nat} (ht : w.bits ∣ t) (hj : j < w.bits) (hb : 32 ∣ bound) :
    t + j < bound ↔ t < bound := by
  cases w <;> simp only [Width.bits] at ht hj <;> omega

/-- The bits a register takes in during a batch from step `t` on: `bitIn` for all lanes at once (rule R98). -/
def lanesIn {n : Nat} (t : Nat) (x y key : BitVec n) : BitVec n :=
  if t < 320 then x ^^^ y else if t < 384 then x ^^^ y ^^^ key else x

/-- The bits that a batch shifts into LFSR (rule R98). -/
def lfsrLanes (w : Width) (c : Config) (k : Reg128) (t : Nat) (d : Datapath) : BitVec w.bits :=
  lanesIn t (feedbackLW w d.lfsr) (ksbW w c d.lfsr d.nfsr) (tapW w k (t - 320 + 64))

/-- The bits that a batch shifts into NFSR (rule R98). -/
def nfsrLanes (w : Width) (c : Config) (k : Reg128) (t : Nat) (d : Datapath) : BitVec w.bits :=
  lanesIn t (feedbackFW w c d.lfsr d.nfsr) (ksbW w c d.lfsr d.nfsr) (tapW w k (t - 320))

/-- A batch, register by register: every sub-phase shifts, and C and D write a window of ACC or AUTH (rule R98). -/
theorem initBatch_eq (w : Width) (c : Config) (k : Reg128) (t : Nat) (d : Datapath) :
    initBatch w c k t d =
      { lfsr := shiftIn w d.lfsr (lfsrLanes w c k t d)
        nfsr := shiftIn w d.nfsr (nfsrLanes w c k t d)
        acc := if 384 ≤ t ∧ t < 448 then setWindow64 w d.acc (t - 384) (ksbW w c d.lfsr d.nfsr) else d.acc
        auth := if 448 ≤ t then setWindow64 w d.auth (t - 448) (ksbW w c d.lfsr d.nfsr) else d.auth } := by
  unfold initBatch lfsrLanes nfsrLanes lanesIn
  split
  case isTrue hA => rw [if_neg (by omega), if_neg (by omega)]
  split
  case isTrue hB => rw [if_neg (by omega), if_neg (by omega)]
  split
  case isTrue hC => rw [if_pos (by omega), if_neg (by omega)]
  case isFalse hC => rw [if_neg (by omega), if_pos (by omega)]

/-- Lane `j` of what a batch from step `t` on shifts in is what step `t + j` shifts in; the key bit counts from step 320 on. -/
theorem lanesIn_getLsbD {w : Width} {t j : Nat} (ht : w.bits ∣ t) (hj : j < w.bits) {x y key : BitVec w.bits}
    {x' y' key' : Bool} (hx : x.getLsbD j = x') (hy : y.getLsbD j = y') (hkey : 320 ≤ t → key.getLsbD j = key') :
    (lanesIn t x y key).getLsbD j = bitIn (t + j) x' y' key' := by
  simp only [lanesIn, bitIn, lane_lt_iff ht hj (show 32 ∣ 320 by decide), lane_lt_iff ht hj (show 32 ∣ 384 by decide)]
  split
  case isTrue => rw [BitVec.getLsbD_xor, hx, hy]
  split
  case isTrue => rw [BitVec.getLsbD_xor, BitVec.getLsbD_xor, hx, hy, hkey (by omega)]
  case isFalse => exact hx

theorem lfsrLanes_getLsbD {w : Width} {c : Config} {t j : Nat} (hc : c.tapsInRange = true) (ht : w.bits ∣ t)
    (hj : j < w.bits) (k : Reg128) (d : Datapath) :
    (lfsrLanes w c k t d).getLsbD j = lfsrBitIn c k (t + j) (initDatapathSteps c k j t d) := by
  have lanes := initDatapathSteps_batchLanes w hc k t d
  refine lanesIn_getLsbD ht hj (lanes.s j hj) (lanes.y j hj) fun h320 => ?_
  rw [tapW_getLsbD k _ hj, show t - 320 + 64 + j = t + j - 320 + 64 by omega]

theorem nfsrLanes_getLsbD {w : Width} {c : Config} {t j : Nat} (hc : c.tapsInRange = true) (ht : w.bits ∣ t)
    (hj : j < w.bits) (k : Reg128) (d : Datapath) :
    (nfsrLanes w c k t d).getLsbD j = nfsrBitIn c k (t + j) (initDatapathSteps c k j t d) := by
  have lanes := initDatapathSteps_batchLanes w hc k t d
  refine lanesIn_getLsbD ht hj (lanes.b j hj) (lanes.y j hj) fun h320 => ?_
  rw [tapW_getLsbD k _ hj, show t - 320 + j = t + j - 320 by omega]

/-- A batch that begins below a boundary of two sub-phases ends at the boundary or below it (rule R98). -/
theorem batch_end_le {w : Width} {t bound : Nat} (ht : w.bits ∣ t) (hb : 32 ∣ bound) (hlt : t < bound) :
    t + w.bits ≤ bound := by
  have hpos := w.bits_pos
  have hlane : t + (w.bits - 1) < bound := (lane_lt_iff ht (by omega) hb).mpr hlt
  omega

/-- Settles O40: LFSR and NFSR take in the lanes as the serial steps' bits, and the window written to ACC or AUTH is the
bits that the serial steps write one by one. -/
theorem batchedInitialisationEqualsSerial : Obligations.BatchedInitialisationEqualsSerial := by
  unfold Obligations.BatchedInitialisationEqualsSerial
  intro w c k t d hc ht _
  have hlfsr : shiftIn w d.lfsr (lfsrLanes w c k t d) = (initDatapathSteps c k w.bits t d).lfsr :=
    (initDatapathSteps_lfsr_takesIn c k t d).shiftIn_eq fun j hj => lfsrLanes_getLsbD hc ht hj k d
  have hnfsr : shiftIn w d.nfsr (nfsrLanes w c k t d) = (initDatapathSteps c k w.bits t d).nfsr :=
    (initDatapathSteps_nfsr_takesIn c k t d).shiftIn_eq fun j hj => nfsrLanes_getLsbD hc ht hj k d
  have hacc : (if 384 ≤ t ∧ t < 448 then setWindow64 w d.acc (t - 384) (ksbW w c d.lfsr d.nfsr) else d.acc) =
      (initDatapathSteps c k w.bits t d).acc := by
    have writes := initDatapathSteps_acc_writesBits c k t d
    split
    case isTrue hC => exact writes.setWindow64_eq (initDatapathSteps_batchLanes w hc k t d).y hC.1
    case isFalse hC =>
      have hend : t < 384 → t + w.bits ≤ 384 := batch_end_le ht (by decide)
      exact (writes.eq_first (by omega)).symm
  have hauth : (if 448 ≤ t then setWindow64 w d.auth (t - 448) (ksbW w c d.lfsr d.nfsr) else d.auth) =
      (initDatapathSteps c k w.bits t d).auth := by
    have writes := initDatapathSteps_auth_writesBits c k t d
    split
    case isTrue hD => exact writes.setWindow64_eq (initDatapathSteps_batchLanes w hc k t d).y hD
    case isFalse hD => exact (writes.eq_first (.inl (batch_end_le ht (by decide) (by omega)))).symm
  rw [initBatch_eq, hlfsr, hnfsr, hacc, hauth]

end Sys2Proof.Machine
end

section
/-! PROOF. The authenticator: the MAC law, ADBIT and PAD, what a list of bits leaves in ACC and AUTH, and a length's encoding
(rules R100 to R107). -/

namespace Sys2Proof.Machine

open Spec

/-! The MAC law, and one per-bit step (rules R101, R103 to R105). -/

/-- Settles O43: ACC, LFSR and NFSR are read off the law, AUTH bit by bit off `shift_in64`. -/
theorem macLaw : Obligations.MacLaw := by
  unfold Obligations.MacLaw
  exact fun m a d => ⟨rfl, fun _ hi => shiftIn64_getLsbD d.auth a hi, rfl, rfl⟩

theorem perBit_acc (c : Config) (m : Bool) (d : Datapath) :
    (perBit c m d).acc = if m = true then d.acc ^^^ d.auth else d.acc := rfl

theorem perBit_auth (c : Config) (m : Bool) (d : Datapath) : (perBit c m d).auth = shiftIn64 d.auth (ksbAt c d 1) := rfl

/-- The lines of rule R103 with a bit that does not depend on the keystream are the model's per-bit step. -/
theorem perBitLines_const (c : Config) (m : Bool) (d : Datapath) : perBitLines c (fun _ => m) d = perBit c m d := rfl

/-- Settles O11: where it is admitted ADBIT has its effect, the lines of rule R103. -/
theorem adbitAuthenticatesOneBit : Obligations.AdbitAuthenticatesOneBit := by
  unfold Obligations.AdbitAuthenticatesOneBit
  refine ⟨rfl, rfl, fun m s => ⟨fun h => ?_, elsewhereRefused nofun fun p hp => (phaseAfter_adbit.mp hp).1⟩⟩
  rw [perBitLines_const]
  exact ⟨_, _, exec_admitted (phaseAfter_adbit.mpr ⟨h, rfl⟩)⟩

/-- Settles O14: where it is admitted PAD has its effect, a per-bit step with bit 1. -/
theorem padAuthenticatesOneFinalOne : Obligations.PadAuthenticatesOneFinalOne := by
  unfold Obligations.PadAuthenticatesOneFinalOne
  refine ⟨rfl, fun s => ⟨fun h => ?_, elsewhereRefused nofun fun p hp => (phaseAfter_pad.mp hp).1⟩⟩
  rw [perBitLines_const]
  exact ⟨_, _, exec_admitted (phaseAfter_pad.mpr ⟨h, rfl⟩), perBit_acc s.cfg true s.dp⟩

/-! Many bits (rules R99, R106, R107). -/

/-- Settles O41: the batched law, stopped after each lane in turn, takes one step of the serial law. -/
theorem batchedMacEqualsSerial : Obligations.BatchedMacEqualsSerial := by
  unfold Obligations.BatchedMacEqualsSerial
  exact authenticateW_eq_macSteps

/-- The final ACC is the first one xored with the AUTH met by every 1 bit (rule R106). -/
theorem authBits_acc (c : Config) (ms : List Bool) (d : Datapath) :
    (authBits c ms d).acc =
      (List.range ms.length).foldl
        (fun a k => if ms.getD k false = true then a ^^^ (authBits c (ms.take k) d).auth else a) d.acc := by
  induction ms generalizing d with
  | nil => rfl
  | cons m ms ih =>
    rw [authBits, ih, List.length_cons, List.range_succ_eq_map, List.foldl_cons, List.foldl_map, perBit_acc]
    rfl

/-- AUTH after a list of bits is a window of the first AUTH followed by the odd keystream bits (rules R103, R106). -/
theorem authBits_auth_getLsbD (c : Config) (ms : List Bool) (d : Datapath) {i : Nat} (hi : i < 64) :
    (authBits c ms d).auth.getLsbD i =
      if ms.length + i < 64 then d.auth.getLsbD (ms.length + i) else ksbAt c d (2 * (ms.length + i - 64) + 1) := by
  induction ms generalizing d with
  | nil => simp [authBits, hi]
  | cons m ms ih =>
    rw [authBits, ih, List.length_cons, perBit_auth, ksbAt_perBit]
    rcases Nat.lt_trichotomy (ms.length + i) 63 with h | h | h
    · rw [if_pos (by omega), if_pos (by omega), shiftIn64_getLsbD _ _ (by omega), if_neg (by omega), Nat.add_right_comm]
    · rw [if_pos (by omega), if_neg (by omega), shiftIn64_getLsbD _ _ (by omega), if_pos h,
        show ms.length + 1 + i - 64 = 0 by omega]
    · rw [if_neg (by omega), if_neg (by omega), show ms.length + 1 + i - 64 = ms.length + i - 64 + 1 by omega,
        Nat.mul_succ, Nat.add_right_comm]

/-- Settles O44: each bit of AUTH is read off the window that has moved past the first k odd bits. -/
theorem tagIsASumOfAuthValues : Obligations.TagIsASumOfAuthValues := by
  unfold Obligations.TagIsASumOfAuthValues
  refine fun c ms d => ⟨authBits_acc c ms d, fun k i hk hi => ?_⟩
  have hbit := authBits_auth_getLsbD c (ms.take k) d hi
  rwa [List.length_take_of_le hk] at hbit

/-! A length's encoding (rule R100). -/

theorem lt_bitWidth_iff {j n : Nat} : j < bitWidth n ↔ 2 ^ j ≤ n := by
  unfold bitWidth
  split
  case isTrue h => simp [h]
  case isFalse h => rw [Nat.lt_succ_iff, Nat.le_log2 h]

/-- The number of bytes that follow the first one in the long form of the encoding of `n`. -/
def byteCount (n : Nat) : Nat := (bitWidth n + 7) / 8

/-- `byteCount n` is the least number of bytes that hold `n`: no power of 256 from there on is at most `n`. -/
theorem lt_byteCount_iff {j n : Nat} : j < byteCount n ↔ 256 ^ j ≤ n := by
  rw [show (256 : Nat) = 2 ^ 8 from rfl, ← Nat.pow_mul, ← lt_bitWidth_iff, byteCount]
  omega

theorem encodeDer_short {n : Nat} (h : n < 128) : encodeDer n = some [BitVec.ofNat 8 n] := if_pos h

theorem encodeDer_long {n : Nat} (hlo : 128 ≤ n) (hhi : n < 2 ^ 64) :
    encodeDer n = some ((0x80#8 ||| BitVec.ofNat 8 (byteCount n)) :: bigEndianBytes (byteCount n) n) :=
  (if_neg (by omega)).trans (if_pos hhi)

theorem encodeDer_refused {n : Nat} (h : 2 ^ 64 ≤ n) : encodeDer n = none :=
  (if_neg (by omega)).trans (if_neg (Nat.not_lt.mpr h))

theorem bigEndianBytes_length (k n : Nat) : (bigEndianBytes k n).length = k := by
  induction k with
  | zero => rfl
  | succ k ih => rw [bigEndianBytes, List.length_cons, ih]

/-- Place j holds the byte with `k - 1 - j` bytes below it. -/
theorem bigEndianBytes_getElem? {k j : Nat} (hj : j < k) (n : Nat) :
    (bigEndianBytes k n)[j]? = some (BitVec.ofNat 8 (n / 256 ^ (k - 1 - j))) := by
  induction k generalizing j with
  | zero => omega
  | succ k ih =>
    cases j with
    | zero =>
      rw [bigEndianBytes, List.getElem?_cons_zero, Nat.shiftRight_eq_div_pow, Nat.pow_mul]
      rfl
    | succ j => rw [bigEndianBytes, List.getElem?_cons_succ, ih (by omega), Nat.sub_sub, Nat.add_sub_cancel, Nat.add_comm 1 j]

/-- The most significant byte of a number that needs `k + 1` bytes is not zero. -/
theorem ofNat_div_pow_ne_zero {k n : Nat} (hlo : 256 ^ k ≤ n) (hhi : n < 256 ^ (k + 1)) :
    BitVec.ofNat 8 (n / 256 ^ k) ≠ 0#8 := by
  have hpos : 0 < n / 256 ^ k := Nat.div_pos hlo (Nat.pow_pos (by decide))
  have hlt : n / 256 ^ k < 256 := Nat.div_lt_of_lt_mul hhi
  bv_omega

/-- Settles O45: in the long form the number of bytes is `byteCount n`. -/
theorem lengthPrefixForm : Obligations.LengthPrefixForm := by
  unfold Obligations.LengthPrefixForm
  refine ⟨fun n h => encodeDer_short h, fun n hlo hhi => ?_, fun n h => encodeDer_refused h⟩
  obtain ⟨k, hk⟩ : ∃ k, byteCount n = k + 1 := Nat.exists_eq_add_one.mpr (lt_byteCount_iff.mpr (by omega))
  have hleast : 256 ^ k ≤ n := lt_byteCount_iff.mp (by omega)
  have hholds : n < 256 ^ (k + 1) := Nat.not_le.mp fun h => absurd (lt_byteCount_iff.mpr h) (by omega)
  have hmax : byteCount n ≤ 8 := Nat.not_lt.mp fun h => absurd (lt_byteCount_iff.mp h) (by omega)
  refine ⟨k + 1, bigEndianBytes (k + 1) n, by omega, by omega, hleast, hholds, hk ▸ encodeDer_long hlo hhi,
    bigEndianBytes_length _ n, fun j hj => bigEndianBytes_getElem? hj n, fun h => ?_⟩
  rw [bigEndianBytes_getElem? (by omega)] at h
  exact ofNat_div_pow_ne_zero hleast hholds (Option.some.inj h)

end Sys2Proof.Machine
end

section
/-! PROOF. The transactions as functions on message bits: a text byte by byte is its message bits in a row, and each
direction undoes the other (rules R34, R55, R120, R121, R131 to R136). -/

namespace Sys2Proof.Machine

/-! Message bits of bytes and byte strings (rules R34, R55). -/

theorem msgAddr_lt {o : MsgBitOrder} {i : Nat} (h : i < 8) : msgAddr o i < 8 := by
  rw [← Nat.div_eq_zero_iff_lt (by decide), msgAddr_div]
  exact Nat.div_eq_of_lt h

/-- Inside a byte the message order is its own inverse. -/
theorem msgAddr_msgAddr {o : MsgBitOrder} {i : Nat} (h : i < 8) : msgAddr o (msgAddr o i) = i := by
  cases o with
  | lsbFirst => rfl
  | msbFirst => simp only [msgAddr, Nat.div_eq_of_lt h, Nat.mod_eq_of_lt h]; omega

@[simp] theorem byteBits_length (o : MsgBitOrder) (b : Byte) : (byteBits o b).length = 8 := by simp [byteBits]

theorem byteBits_getElem? (o : MsgBitOrder) (b : Byte) {i : Nat} (h : i < 8) :
    (byteBits o b)[i]? = some (b.getLsbD (msgAddr o i)) := by
  simp [byteBits, h]

theorem byteOfBits_byteBits (o : MsgBitOrder) (b : Byte) : byteOfBits o (byteBits o b) = b := by
  refine BitVec.eq_of_getLsbD_eq fun i hi => ?_
  rw [byteOfBits, packBits_getLsbD _ hi, List.getD_eq_getElem?_getD, byteBits_getElem? o b (msgAddr_lt hi),
    msgAddr_msgAddr hi]
  rfl

theorem byteBits_byteOfBits (o : MsgBitOrder) {bits : List Bool} (h : bits.length = 8) :
    byteBits o (byteOfBits o bits) = bits := by
  refine List.ext_getElem? fun i => ?_
  by_cases hi : i < 8
  · rw [byteBits_getElem? o _ hi, byteOfBits, packBits_getLsbD _ (msgAddr_lt hi), msgAddr_msgAddr hi]
    simp [h, hi]
  · simp [h, Nat.not_lt.mp hi]

@[simp] theorem stringBits_nil (o : MsgBitOrder) : stringBits o [] = [] := rfl

@[simp] theorem stringBits_cons (o : MsgBitOrder) (b : Byte) (bs : List Byte) :
    stringBits o (b :: bs) = byteBits o b ++ stringBits o bs := rfl

theorem stringBits_append (o : MsgBitOrder) (as bs : List Byte) :
    stringBits o (as ++ bs) = stringBits o as ++ stringBits o bs := List.flatMap_append

@[simp] theorem stringBits_length (o : MsgBitOrder) (bs : List Byte) : (stringBits o bs).length = 8 * bs.length := by
  induction bs with
  | nil => rfl
  | cons b bs ih => rw [stringBits_cons, List.length_append, byteBits_length, ih, List.length_cons]; omega

theorem stringBits_injective (o : MsgBitOrder) : Function.Injective (stringBits o) := by
  intro as bs h
  have hlen : as.length = bs.length := by simpa using congrArg List.length h
  induction as generalizing bs with
  | nil => exact (List.length_eq_zero_iff.mp hlen.symm).symm
  | cons a as ih =>
    obtain ⟨b, bs, rfl⟩ := List.exists_cons_of_length_eq_add_one hlen.symm
    obtain ⟨hbyte, hrest⟩ := List.append_inj h (by simp)
    rw [← byteOfBits_byteBits o a, hbyte, byteOfBits_byteBits, ih hrest (by simpa using hlen)]

/-- Message bit `m` of a string is the buffer's bit at its bit address (rule R34). -/
theorem stringBits_getElem? (o : MsgBitOrder) (bs : List Byte) (m : Nat) :
    (stringBits o bs)[m]? = bufBit bs (msgAddr o m) := by
  induction bs generalizing m with
  | nil => simp [bufBit, bufRead]
  | cons b bs ih =>
    by_cases h : m < 8
    · rw [stringBits_cons, List.getElem?_append_left (by simpa using h), byteBits_getElem? o b h,
        bufBit_cons_of_lt (msgAddr_lt h)]
    · have haddr : msgAddr o m = msgAddr o (m - 8) + 8 := by
        cases o with
        | lsbFirst => simp only [msgAddr]; omega
        | msbFirst => simp only [msgAddr]; omega
      rw [stringBits_cons, List.getElem?_append_right (by simpa using Nat.not_lt.mp h), byteBits_length, ih,
        bufBit_cons_of_ge (by omega), haddr, Nat.add_sub_cancel]

/-! A text bit by bit, in either direction (rules R120, R121). -/

/-- ENCBIT (`decrypt` false) or DECBIT for each bit of a list: the output bits and the registers after them. -/
def textBits (c : Config) (decrypt : Bool) (bits : List Bool) (d : Datapath) : List Bool × Datapath :=
  if decrypt then decBits c bits d else encBits c bits d

/-- The plaintext bit of a text command with operand `b`, the bit that is authenticated (rules R120, R121). -/
def plainBit (c : Config) (decrypt b : Bool) (d : Datapath) : Bool := if decrypt then b ^^ evenBit c d else b

theorem textBits_nil (c : Config) (decrypt : Bool) (d : Datapath) : textBits c decrypt [] d = ([], d) := by
  cases decrypt <;> rfl

theorem textBits_cons (c : Config) (decrypt b : Bool) (bits : List Bool) (d : Datapath) :
    textBits c decrypt (b :: bits) d =
      ((b ^^ evenBit c d) :: (textBits c decrypt bits (perBit c (plainBit c decrypt b d) d)).1,
        (textBits c decrypt bits (perBit c (plainBit c decrypt b d) d)).2) := by
  cases decrypt <;> rfl

theorem textBits_length (c : Config) (decrypt : Bool) (bits : List Bool) (d : Datapath) :
    (textBits c decrypt bits d).1.length = bits.length := by
  induction bits generalizing d with
  | nil => rw [textBits_nil]
  | cons b bits ih => rw [textBits_cons, List.length_cons, List.length_cons, ih]

theorem textBits_append (c : Config) (decrypt : Bool) (as bs : List Bool) (d : Datapath) :
    textBits c decrypt (as ++ bs) d =
      ((textBits c decrypt as d).1 ++ (textBits c decrypt bs (textBits c decrypt as d).2).1,
        (textBits c decrypt bs (textBits c decrypt as d).2).2) := by
  induction as generalizing d with
  | nil => rw [textBits_nil]; rfl
  | cons a as ih => rw [List.cons_append, textBits_cons, ih, textBits_cons]; rfl

/-- One direction on the output bits of the other gives the text back and authenticates the same bits (rule R121). -/
theorem textBits_undo (c : Config) (decrypt : Bool) (bits : List Bool) (d : Datapath) :
    textBits c (!decrypt) (textBits c decrypt bits d).1 d = (bits, (textBits c decrypt bits d).2) := by
  induction bits generalizing d with
  | nil => rw [textBits_nil, textBits_nil]
  | cons b bits ih =>
    have hplain : plainBit c (!decrypt) (b ^^ evenBit c d) d = plainBit c decrypt b d := by
      cases decrypt <;> simp [plainBit]
    rw [textBits_cons, textBits_cons, hplain, ih]
    simp

/-! A text byte by byte (rules R55, R132, R133). -/

/-- The message bits of a text's output, and its registers, are those of its message bits in a row. -/
theorem textBytes_eq_textBits (c : Config) (decrypt : Bool) (text : List Byte) (d : Datapath) :
    (stringBits c.msgBitOrder (textBytes c decrypt text d).1, (textBytes c decrypt text d).2) =
      textBits c decrypt (stringBits c.msgBitOrder text) d := by
  induction text generalizing d with
  | nil => exact (textBits_nil c decrypt d).symm
  | cons b text ih =>
    have hbyte : byteBits c.msgBitOrder (textByte c decrypt b d).1 =
        (textBits c decrypt (byteBits c.msgBitOrder b) d).1 :=
      byteBits_byteOfBits _ (by rw [← textBits, textBits_length, byteBits_length])
    rw [stringBits_cons, textBits_append, show (textBits c decrypt (byteBits c.msgBitOrder b) d).2 =
      (textByte c decrypt b d).2 from rfl, ← ih, textBytes, stringBits_cons, hbyte]

theorem textBytes_length (c : Config) (decrypt : Bool) (text : List Byte) (d : Datapath) :
    (textBytes c decrypt text d).1.length = text.length := by
  induction text generalizing d with
  | nil => rfl
  | cons b text ih => rw [textBytes, List.length_cons, List.length_cons, ih]

/-- Each direction undoes the other on byte strings, and ends with the same registers. -/
theorem textBytes_undo (c : Config) (decrypt : Bool) (text : List Byte) (d : Datapath) :
    textBytes c (!decrypt) (textBytes c decrypt text d).1 d = (text, (textBytes c decrypt text d).2) := by
  have hfirst := textBytes_eq_textBits c decrypt text d
  have hsecond := textBytes_eq_textBits c (!decrypt) (textBytes c decrypt text d).1 d
  rw [show stringBits c.msgBitOrder (textBytes c decrypt text d).1 = _ from congrArg Prod.fst hfirst, textBits_undo,
    ← hfirst, Prod.mk.injEq] at hsecond
  exact Prod.ext (stringBits_injective _ hsecond.1) hsecond.2

theorem runTransaction_undo {c : Config} {decrypt : Bool} {key : Reg128} {nonce : NonceWord} {ad text out : List Byte}
    {tag : Reg64} {d : Datapath} (h : runTransaction c decrypt key nonce ad text d = some (out, tag)) :
    runTransaction c (!decrypt) key nonce ad out d = some (text, tag) := by
  simp only [runTransaction, Option.map_eq_some_iff, Prod.mk.injEq] at h ⊢
  obtain ⟨stream, hstream, rfl, rfl⟩ := h
  exact ⟨stream, hstream, by rw [textBytes_undo], by rw [textBytes_undo]⟩

/-- A transaction gives a result whenever the length of its associated data can be encoded. -/
theorem exists_runTransaction {ad : List Byte} (h : ad.length < 2 ^ 64) (c : Config) (decrypt : Bool) (key : Reg128)
    (nonce : NonceWord) (text : List Byte) (d : Datapath) :
    ∃ out tag, runTransaction c decrypt key nonce ad text d = some (out, tag) ∧ out.length = text.length := by
  obtain ⟨stream, hstream, _⟩ := adStream_nonempty h
  exact ⟨_, _, by rw [runTransaction, hstream]; rfl, textBytes_length ..⟩

theorem decryptTransaction_eq {c : Config} {key : Reg128} {nonce : NonceWord} {ad text out : List Byte} {tag : Reg64}
    (h : runTransaction c true key nonce ad text Datapath.zero = some (out, tag)) (g : Reg64) :
    decryptTransaction c key nonce g ad text = some (if g = tag then (out, true) else (zeroBytes out, false)) := by
  rw [decryptTransaction, h, Option.map_some]
  exact congrArg some (if_congr (beq_iff_eq.trans eq_comm) rfl rfl)

/-- Settles O46: decryption undoes the text and meets the same ACC. -/
theorem decryptUndoesEncrypt : Obligations.DecryptUndoesEncrypt := by
  unfold Obligations.DecryptUndoesEncrypt
  intro c key nonce ad text had
  obtain ⟨ct, tag, henc, hlen⟩ := exists_runTransaction had c false key nonce text Datapath.zero
  exact ⟨ct, tag, henc, hlen, (decryptTransaction_eq (runTransaction_undo henc) tag).trans (by rw [if_pos rfl])⟩

/-- Settles O47: the tag is compared with the ACC that encryption of the recovered text gives. -/
theorem failedDecryptReleasesOnlyZeros : Obligations.FailedDecryptReleasesOnlyZeros := by
  unfold Obligations.FailedDecryptReleasesOnlyZeros
  intro c key nonce ad text had
  obtain ⟨pt, tag, hdec, hlen⟩ := exists_runTransaction had c true key nonce text Datapath.zero
  refine ⟨pt, tag, hdec, hlen, runTransaction_undo hdec, fun g => ?_⟩
  rw [decryptTransaction_eq hdec g, apply_ite some, zeroBytes, hlen]
  rfl

/-! The command sequence (rules R55, R132, R133). -/

theorem adBytes_eq (o : MsgBitOrder) (bs : List Byte) : adBytes o bs = (stringBits o bs).map .adbit :=
  (List.map_flatMap ..).symm

theorem textCommands_eq (o : MsgBitOrder) (decrypt : Bool) (text : List Byte) :
    (text.flatMap fun b => if decrypt = true then decByte o b else encByte o b) =
      (stringBits o text).map (if decrypt = true then .decbit else .encbit) := by
  cases decrypt <;> exact (List.map_flatMap ..).symm

/-- Settles O54: each part of the sequence is the message bits of a string under one mnemonic. -/
theorem transactionCommandCount : Obligations.TransactionCommandCount := by
  unfold Obligations.TransactionCommandCount
  intro o decrypt ad text pre hpre
  have hcommands : transactionCommands o decrypt ad text =
      some ([.load decrypt] ++ (stringBits o (pre ++ ad)).map .adbit
        ++ (stringBits o text).map (if decrypt = true then .decbit else .encbit)
        ++ [.pad, if decrypt = true then .verify else .tag]) := by
    rw [transactionCommands, adLen, hpre, Option.map_some, Option.map_some, textCommands_eq, adBytes_eq, adBytes_eq,
      List.append_assoc [_], ← List.map_append, ← stringBits_append]
  refine ⟨_, _, _, hcommands, rfl, rfl, ?_, rfl, ?_, ?_⟩
  · rw [List.length_map, stringBits_length, List.length_append]
  · rw [List.length_map, stringBits_length]
  · simp only [List.length_append, List.length_map, stringBits_length, List.length_cons, List.length_nil]
    omega

end Sys2Proof.Machine
end

section
/-! PROOF. The text commands and the commands that end a transaction (rules R120 to R126). -/

namespace Sys2Proof.Machine

open Spec

/-- Settles O12: where it is admitted ENCBIT has its effect, the lines of rule R103 with the plaintext bit. -/
theorem encbitEncryptsAndAuthenticates : Obligations.EncbitEncryptsAndAuthenticates := by
  unfold Obligations.EncbitEncryptsAndAuthenticates
  refine ⟨rfl, rfl, fun p s => ⟨fun ⟨hp, hdir⟩ => ?_, elsewhereRefused nofun fun q hq => ?_⟩⟩
  · rw [perBitLines_const]
    exact exec_admitted (phaseAfter_encbit.mpr ⟨hp, hdir, rfl⟩)
  · obtain ⟨hp, hdir, _⟩ := phaseAfter_encbit.mp hq
    exact ⟨hp, hdir⟩

/-- DECBIT of a masked bit does what ENCBIT of the bit does, and puts the bit out (rule R121). -/
theorem decbitEffect_mask (p : Bool) {s : State} (hdir : s.dir = true) :
    decbitEffect (p ^^ evenBit s.cfg s.dp) s =
      { encbitEffect p { s with dir := false } with dir := true, dout := p } := by
  have hrecovered : (p ^^ evenBit s.cfg s.dp ^^ evenBit s.cfg s.dp) = p := by simp
  rw [decbitEffect, hrecovered, ← hdir]
  rfl

/-- Settles O13: where it is admitted DECBIT has its effect, the lines of rule R103 with the recovered bit. -/
theorem decbitRecoversAndAuthenticates : Obligations.DecbitRecoversAndAuthenticates := by
  unfold Obligations.DecbitRecoversAndAuthenticates
  refine ⟨rfl, rfl, fun c s => ⟨fun ⟨hp, hdir⟩ => ?_, elsewhereRefused nofun fun q hq => ?_⟩⟩
  · have hexec : exec (.decbit c) s = .next (decbitEffect c s) := exec_admitted (phaseAfter_decbit.mpr ⟨hp, hdir, rfl⟩)
    refine ⟨hexec, fun p hc => ⟨encbitEffect p { s with dir := false }, ?_, ?_⟩⟩
    · exact exec_admitted (s := { s with dir := false }) (phaseAfter_encbit.mpr ⟨hp, rfl, rfl⟩)
    · rw [hexec, hc]
      exact congrArg _ (decbitEffect_mask p hdir)
  · obtain ⟨hp, hdir, _⟩ := phaseAfter_decbit.mp hq
    exact ⟨hp, hdir⟩

/-- The bytes of a port value are its 8-bit windows (rules R8, R33). -/
theorem bytesOfPort_getElem? {n k : Nat} (v : BitVec n) (hk : k < n / 8) :
    (bytesOfPort v)[k]? = some (v.extractLsb' (8 * k) 8) := by
  simp [bytesOfPort, hk]

/-- Settles O15: where it is admitted TAG has its effect, and the tag buffer is read byte by byte off the latch. -/
theorem tagLatchesTheAccumulator : Obligations.TagLatchesTheAccumulator := by
  unfold Obligations.TagLatchesTheAccumulator
  refine ⟨rfl, fun s => ⟨fun ⟨hp, hdir⟩ => ?_, elsewhereRefused nofun fun q hq => ?_⟩⟩
  · exact ⟨_, _, tagEffect s, exec_admitted (phaseAfter_tag.mpr ⟨hp, hdir, rfl⟩), rfl,
      fun k hk => bytesOfPort_getElem? s.dp.acc hk⟩
  · obtain ⟨hp, hdir, _⟩ := phaseAfter_tag.mp hq
    exact ⟨hp, hdir⟩

/-- Settles O16: where it is admitted VERIFY has its effect, with the comparison as `ok`. -/
theorem verifyComparesAllBits : Obligations.VerifyComparesAllBits := by
  unfold Obligations.VerifyComparesAllBits
  refine ⟨rfl, fun s => ⟨fun ⟨hp, hdir⟩ => ?_, elsewhereRefused nofun fun q hq => ?_⟩⟩
  · exact ⟨_, _, s.dp.acc == s.tagIn, exec_admitted (phaseAfter_verify.mpr ⟨hp, hdir, rfl⟩), beq_iff_eq⟩
  · obtain ⟨hp, hdir, _⟩ := phaseAfter_verify.mp hq
    exact ⟨hp, hdir⟩

/-- Settles O17: outside INIT CLEAR is the return to IDLE. -/
theorem clearReturnsToIdle : Obligations.ClearReturnsToIdle := by
  unfold Obligations.ClearReturnsToIdle
  exact ⟨rfl, fun s hp => ⟨_, _, exec_clear hp⟩⟩

end Sys2Proof.Machine
end

section
/-! PROOF. The orchestrator's steps: what follows a command, the release rule, the length check, and that its own commands
never fault (rules R49, R52, R126, R131 to R135, R142, R161). -/

namespace Sys2Proof.Machine

/-! What follows a command. -/

/-- With no host move only the command port and `rst` are driven, and the command port by a running transaction only. -/
theorem drivePorts_without_host {s t : State} (hh : s.host = []) (e : drivePorts s = .next t) :
    ∃ v c, t = { s with rst := false, cmdValid := v, cmd := c } ∧ (s.orch.stage = .idle → v = s.cmdValid) := by
  have hm : hostMove { s with rst := false } = { s with rst := false } := by unfold hostMove; simp [hh]
  unfold drivePorts at e
  rw [hm] at e
  rcases presentOrchestrator_cases { s with rst := false } with ⟨_, q⟩ | ⟨hs, _, ⟨i, _, q⟩ | ⟨r, _, q⟩⟩ <;>
    rw [q] at e <;> cases e
  · exact ⟨_, _, rfl, fun _ => rfl⟩
  · exact ⟨_, _, rfl, fun h => absurd h hs⟩

theorem afterCommand_eq_next {s t v : State} (e : afterCommand s (.next t) = .next v) :
    ∃ u, advanceOrchestrator { t with cmdValid := false } = .next u ∧ drivePorts (release s u) = .next v := by
  simp only [afterCommand, andThen] at e
  cases hu : advanceOrchestrator { t with cmdValid := false } with
  | next u => rw [hu] at e; exact ⟨u, rfl, e⟩
  | fault q => exact nomatch q
  | refused q => rw [hu] at e; cases e

/-- The orchestrator's move keeps M, and writes `TXTOUT` in its text stage only. -/
theorem advanceOrchestrator_buffers {t u : State} (e : advanceOrchestrator t = .next u) :
    u.orch.knowsM = t.orch.knowsM ∧ u.mem.txtOut.length = t.mem.txtOut.length ∧
      (t.orch.stage ≠ .text → u.mem = t.mem) := by
  by_cases he : t.phase = .error
  · rw [advanceOrchestrator_error he] at e; cases e; exact ⟨rfl, rfl, fun _ => rfl⟩
  cases hs : t.orch.stage with
  | idle => rw [advanceOrchestrator_idle he hs] at e; cases e; exact ⟨rfl, rfl, fun _ => rfl⟩
  | load => rw [advanceOrchestrator_load he hs] at e; cases e; exact ⟨rfl, rfl, fun _ => rfl⟩
  | pad => rw [advanceOrchestrator_pad he hs] at e; cases e; exact ⟨rfl, rfl, fun _ => rfl⟩
  | finish => rw [advanceOrchestrator_finish he hs] at e; cases e; exact ⟨rfl, rfl, fun _ => rfl⟩
  | adStream =>
    cases hstream : adStream t.mem.ad with
    | none => simp [advanceOrchestrator, he, hs, hstream] at e
    | some stream =>
      rw [advanceOrchestrator_adStream he hs hstream] at e
      split at e <;> (cases e; exact ⟨rfl, rfl, fun _ => rfl⟩)
  | text =>
    rcases advanceOrchestrator_text he hs with ⟨_, q⟩ | ⟨_, v, out, q, _, _, _, hw, hmem, ho⟩ | ⟨_, _, q⟩ <;>
      rw [q] at e <;> cases e
    · exact ⟨rfl, rfl, fun _ => rfl⟩
    · refine ⟨?_, by rw [hmem]; exact bufWrite_length hw, fun hn => absurd rfl hn⟩
      rcases ho with ⟨_, ho⟩ | ⟨_, ho⟩ <;> rw [ho]

theorem takesCommand_iff (s : State) :
    s.takesCommand = true ↔ s.rst = false ∧ s.phase ≠ .init ∧ s.cmdValid = true := by
  simp [State.takesCommand, cmdReady_iff, and_assoc]

/-- A step that takes a word while the host makes no move: the word's outcome, the orchestrator's move and the release rule;
then only the command port and `rst` are driven. -/
theorem step_takes_word {s t : State} (htakes : s.takesCommand = true) (hh : s.host = []) (e : step s = .next t) :
    ∃ w u v c, takeWord s.cmd s = .next w ∧ advanceOrchestrator { w with cmdValid := false } = .next u ∧
      t = { release s u with rst := false, cmdValid := v, cmd := c } ∧ (u.orch.stage = .idle → v = false) := by
  obtain ⟨hr, hp, hv⟩ := (takesCommand_iff s).mp htakes
  obtain ⟨w, ew⟩ := takeWord_answers s.cmd s
  rw [step_command hr hp hv, ew] at e
  obtain ⟨u, eu, et⟩ := afterCommand_eq_next e
  obtain ⟨_, _, hu⟩ := advanceOrchestrator_frame eu
  have hhost : (release s u).host = [] := by
    rw [release_host, hu]
    exact (takeWord_sameSurroundings ew).host.trans hh
  obtain ⟨v, c, ht, hport⟩ := drivePorts_without_host hhost et
  refine ⟨w, u, v, c, ew, eu, ht, fun hs => (hport (by rw [release_orch, hs])).trans ?_⟩
  rw [release_cmdValid, hu]

/-! The release rule (rules R126, R131, R161). -/

/-- `TXTOUT` is due to be zeroed when `wipe` is 1, or when CLEAR meets a decrypt transaction that has not ended with
`ok` = 1. -/
theorem mustZero_iff (s t : State) :
    mustZero s t = true ↔
      t.wipe = true ∨ s.cmd = 0x80#8 ∧ s.dir = true ∧ s.phase ≠ .idle ∧ ¬ (s.phase = .done ∧ s.ok = true) := by
  simp [mustZero, State.unreleasedDecrypt, encode, and_assoc, imp_iff_not_or]

theorem release_eq_self {s t : State} (h : t.orch.knowsM = false ∨ mustZero s t = false) : release s t = t := by
  rcases release_cases s t with ⟨hm, hz, _⟩ | ⟨_, e⟩
  · rw [hm, hz] at h; simp at h
  · exact e

theorem release_zeroes {s t : State} (hm : t.orch.knowsM = true) (hz : mustZero s t = true) :
    release s t = { t with mem := { t.mem with txtOut := zeroBytes t.mem.txtOut } } := by
  rcases release_cases s t with ⟨_, _, e⟩ | ⟨h, _⟩
  · exact e
  · rw [hm, hz] at h; simp at h

/-- Settles O51: the orchestrator's move keeps the length of `TXTOUT` and M, and the release rule decides on what it left. -/
theorem releaseRuleForEveryCommand : Obligations.ReleaseRuleForEveryCommand := by
  unfold Obligations.ReleaseRuleForEveryCommand
  intro s t htakes hh e
  obtain ⟨w, u, v, c, ew, eu, rfl, _⟩ := step_takes_word htakes hh e
  have hf := takeWord_sameSurroundings ew
  obtain ⟨hknows, hlen, hmem⟩ := advanceOrchestrator_buffers eu
  obtain ⟨_, _, hu⟩ := advanceOrchestrator_frame eu
  obtain ⟨_, hrelease⟩ := release_frame s u
  have hknows : u.orch.knowsM = s.orch.knowsM := by rw [hknows, hf.orch]
  have hlen : u.mem.txtOut.length = s.mem.txtOut.length := by rw [hlen, hf.mem]
  have hin : (release s u).mem.ad = s.mem.ad ∧ (release s u).mem.txtIn = s.mem.txtIn := by
    rw [hrelease, hu, hf.mem]
    exact ⟨rfl, rfl⟩
  have hw : (release s u).wipe = u.wipe := congrArg EngineView.wipe (release_engine s u)
  intro cleared
  have hzero : mustZero s u = true ↔ (release s u).wipe = true ∨ cleared := hw ▸ mustZero_iff s u
  refine ⟨fun hkn hz => ?_, fun hkeep hs => ?_, hin.1, hin.2, (congrArg _ (release_orch s u)).trans hknows⟩
  · rw [release_zeroes (hknows.trans hkn) (hzero.mpr hz), zeroBytes, hlen]
    rfl
  · have hnot : u.orch.knowsM = false ∨ mustZero s u = false :=
      hkeep.imp hknows.trans fun ⟨hw0, hc⟩ => Bool.eq_false_iff.mpr fun h => (hzero.mp h).elim (hw0 ▸ nofun) hc
    rw [release_eq_self hnot, hmem (by rw [hf.orch]; exact hs), hf.mem]

/-! Calls (rules R130, R135, R142). -/

theorem lengthsAllowed_iff {decrypt : Bool} {key nonce tag ad : List Byte} :
    lengthsAllowed decrypt key nonce tag ad = true ↔
      key.length = 16 ∧ nonce.length = 12 ∧ (decrypt = true → tag.length = 8) ∧ ad.length < 2 ^ 64 := by
  simp only [lengthsAllowed, Bool.and_eq_true, beq_iff_eq, decide_eq_true_eq, and_assoc, Bool.or_eq_true,
    Bool.not_eq_true', ← Bool.not_eq_true, ← imp_iff_not_or]
  rfl

theorem hostMove_encrypt {s : State} {key nonce ad text : List Byte} {rest : List HostMove} (hf : s.portFree = true)
    (hp : s.phase ≠ .init) (hh : s.host = .encrypt key nonce ad text :: rest) :
    hostMove s = startCall false key nonce [] ad text { s with host := rest } := by
  unfold hostMove
  simp [hh, hf, (cmdReady_iff s).mpr hp]

theorem hostMove_decrypt {s : State} {key nonce tag ad text : List Byte} {rest : List HostMove} (hf : s.portFree = true)
    (hp : s.phase ≠ .init) (hh : s.host = .decrypt key nonce tag ad text :: rest) :
    hostMove s = startCall true key nonce tag ad text { s with host := rest } := by
  unfold hostMove
  simp [hh, hf, (cmdReady_iff s).mpr hp]

/-- A call with lengths that are not allowed leaves the report and nothing on the port. -/
theorem drivePorts_refused_call {s : State} {decrypt : Bool} {key nonce tag ad text : List Byte} {rest : List HostMove}
    (hs : s.orch.stage = .idle) (hl : lengthsAllowed decrypt key nonce tag ad = false)
    (hm : hostMove { s with rst := false } = startCall decrypt key nonce tag ad text { s with rst := false, host := rest }) :
    drivePorts s =
      .next { s with rst := false, host := rest, orch := { s.orch with report := .contractViolation } } := by
  rw [startCall, if_neg (by simp [hl])] at hm
  rw [drivePorts, hm, presentOrchestrator, if_pos (.inl hs)]

/-- Settles O52: the step waits, and the refused call only sets the report. -/
theorem wrongLengthsAreRefusedBeforeAnyCommand : Obligations.WrongLengthsAreRefusedBeforeAnyCommand := by
  unfold Obligations.WrongLengthsAreRefusedBeforeAnyCommand
  intro s key nonce tag ad text rest hr hp hf hcall
  obtain ⟨hs, hv⟩ := (portFree_iff s).mp hf
  have hdrive : drivePorts s.quiet =
      .next { s.quiet with rst := false, host := rest, orch := { s.orch with report := .contractViolation } } := by
    rcases hcall with ⟨hh, hl⟩ | ⟨hh, hl⟩
    · refine drivePorts_refused_call (s := s.quiet) hs (Bool.eq_false_iff.mpr fun h => hl ?_)
        (hostMove_encrypt (s := { s.quiet with rst := false }) hf hp hh)
      obtain ⟨hkey, hnonce, _, had⟩ := lengthsAllowed_iff.mp h
      exact ⟨hkey, hnonce, had⟩
    · refine drivePorts_refused_call (s := s.quiet) hs (Bool.eq_false_iff.mpr fun h => hl ?_)
        (hostMove_decrypt (s := { s.quiet with rst := false }) hf hp hh)
      obtain ⟨hkey, hnonce, htag, had⟩ := lengthsAllowed_iff.mp h
      exact ⟨hkey, hnonce, htag rfl, had⟩
  exact ⟨_, (step_waits hr hp hv).trans hdrive, hv, rfl, rfl, rfl, hs, rfl, rfl⟩

/-! The orchestrator's own commands (rules R132, R133). -/

/-- Past LOAD the phases a transaction goes through are none of them ERROR. -/
theorem Stage.phaseLeft_ne_error (g : Stage) : g.phaseLeft ≠ .error := by cases g <;> decide

/-- Settles O53: in INIT no command is taken, and after it each of the orchestrator's commands leaves the phase of its
stage. -/
theorem orchestratorNeverFaults : Obligations.OrchestratorNeverFaults := by
  unfold Obligations.OrchestratorNeverFaults
  intro s h hr hs hl
  obtain ⟨t, e, ht, _⟩ := everyStepKeepsTheInvariantAndNeverStops s h
  suffices hne : t.phase ≠ .error from ⟨t, e, hne, ht.engine.code_none hne⟩
  by_cases hp : s.phase = .init
  · obtain ⟨u, eu, hu⟩ := step_initialisesTo hr hp h.orch.driven
    obtain rfl : t = u := Host.Outcome.next.inj (e.symm.trans eu)
    rw [hu.phase]
    split <;> decide
  · obtain ⟨w, ew⟩ := takeWord_answers s.cmd s
    obtain ⟨u, eu, _, heng, _⟩ := afterCommand_ready h.orch hp ew
    obtain ⟨hv, _⟩ := h.orch.presented hs
    rw [step_command hr hp hv, ew, eu] at e
    obtain rfl : u = t := Host.Outcome.next.inj e
    rw [show u.phase = w.phase from congrArg EngineView.phase heng, (h.orch.takeWord_own hp hs hl ew).1]
    exact s.orch.stage.phaseLeft_ne_error

end Sys2Proof.Machine
end

section
/-! PROOF. The orchestrator's own commands one by one, past LOAD: what each step leaves, and the output bit of a text command
(rules R24, R34, R37, R122, R132, R133). -/

namespace Sys2Proof.Machine

/-! One command of the orchestrator's. -/

theorem phaseAfter_init (i : Instr) (dir : Bool) : phaseAfter i .init dir = none := by cases i <;> rfl

theorem orchCommand_ne_clear {s : State} {i : Instr} (hi : orchCommand s = .ok i) : i ≠ .clear := by
  by_cases hl : s.orch.stage = .load
  · rw [orchCommand_load hl] at hi; cases hi; nofun
  · exact (orchCommand_keeps_transaction hl hi).2

theorem orchCommand_of_textBit {s : State} {b : Bool} (hs : s.orch.stage = .text)
    (hb : bufBit s.mem.txtIn (msgAddr s.cfg.msgBitOrder s.orch.pos) = some b) :
    orchCommand s = .ok (if s.orch.decrypt then .decbit b else .encbit b) := by
  unfold orchCommand; simp [hs, hb]

theorem orchCommand_of_adBit {s : State} {m : Bool} {stream : List Byte} (hs : s.orch.stage = .adStream)
    (hstream : adStream s.mem.ad = some stream)
    (hm : bufBit stream (msgAddr s.cfg.msgBitOrder s.orch.pos) = some m) : orchCommand s = .ok (.adbit m) := by
  unfold orchCommand; simp [hs, hstream, hm]

/-- A transaction of the orchestrator's that nothing disturbs: no reset, no host move, and `wipe` is 0. -/
structure Running (s : State) : Prop where
  inv : OrchInv s
  rst : s.rst = false
  host : s.host = []
  wipe : s.wipe = false

/-- An admitted command of the orchestrator's: its effect, the orchestrator's move and the release rule; then only the
command port and `rst` are driven. -/
theorem OrchInv.step_own {s : State} {i : Instr} {p : Phase} (h : OrchInv s) (hr : s.rst = false) (hh : s.host = [])
    (hs : s.orch.stage ≠ .idle) (hi : orchCommand s = .ok i) (hadm : phaseAfter i s.phase s.dir = some p) :
    ∃ u t v c, advanceOrchestrator { effect i s with cmdValid := false } = .next u ∧ step s = .next t ∧ OrchInv t ∧
      t = { release s u with rst := false, cmdValid := v, cmd := c } ∧ (u.orch.stage = .idle → v = false) ∧
      mustZero s u = (effect i s).wipe := by
  have hp : s.phase ≠ .init := fun hp => by rw [hp, phaseAfter_init] at hadm; cases hadm
  obtain ⟨hv, j, hj, hcmd⟩ := h.presented hs
  obtain rfl : i = j := Except.ok.inj (hi.symm.trans hj)
  have htake : takeWord s.cmd s = .next (effect i s) :=
    (takeWord_of_decode (by rw [hcmd, decode_encode]) s).trans (exec_admitted hadm)
  obtain ⟨t, et, ht, _⟩ := afterCommand_ready h hp htake
  have hstep : step s = .next t := (step_command hr hp hv).trans ((congrArg _ htake).trans et)
  obtain ⟨w, u, v, c, ew, eu, hout, hport⟩ := step_takes_word ((takesCommand_iff s).mpr ⟨hr, hp, hv⟩) hh hstep
  obtain rfl : effect i s = w := Host.Outcome.next.inj (htake.symm.trans ew)
  obtain ⟨_, _, hu⟩ := advanceOrchestrator_frame eu
  have hclear : s.cmd ≠ encode .clear := fun hc =>
    orchCommand_ne_clear hi (Option.some.inj ((decode_encode i).symm.trans (by rw [← hcmd, hc, decode_encode])))
  exact ⟨u, t, v, c, eu, hstep, ht, hout, hport, by simp [mustZero, hclear, hu]⟩

/-- The same where the command leaves `wipe` 0: the release rule does nothing, and the transaction goes on undisturbed. -/
theorem OrchInv.step_own_unwiped {s : State} {i : Instr} {p : Phase} (h : OrchInv s) (hr : s.rst = false) (hh : s.host = [])
    (hs : s.orch.stage ≠ .idle) (hi : orchCommand s = .ok i) (hadm : phaseAfter i s.phase s.dir = some p)
    (hw : (effect i s).wipe = false) :
    ∃ u t v c, advanceOrchestrator { effect i s with cmdValid := false } = .next u ∧ step s = .next t ∧ Running t ∧
      t = { u with rst := false, cmdValid := v, cmd := c } ∧ (u.orch.stage = .idle → v = false) := by
  obtain ⟨u, t, v, c, eu, et, ht, hout, hport, hz⟩ := h.step_own hr hh hs hi hadm
  obtain ⟨_, _, hu⟩ := advanceOrchestrator_frame eu
  rw [release_eq_self (.inr (hz.trans hw))] at hout
  refine ⟨u, t, v, c, eu, et, ⟨ht, by rw [hout], ?_, ?_⟩, hout, hport⟩
  · rw [hout, hu]; exact (effect_sameSurroundings i s).host.trans hh
  · rw [hout, hu]; exact hw

/-! What a running transaction leaves alone. -/

/-- The call's inputs and the result flags. -/
structure CallView where
  ad : List Byte
  txtIn : List Byte
  tagIn : Reg64
  cfg : Config
  decrypt : Bool
  okv : Bool
  ok : Bool
  tagv : Bool
  tago : Reg64

/-- The call's inputs and the result flags of a state. -/
def State.callView (s : State) : CallView :=
  ⟨s.mem.ad, s.mem.txtIn, s.tagIn, s.cfg, s.orch.decrypt, s.okv, s.ok, s.tagv, s.tago⟩

/-! The text stage (rules R122, R132, R133). -/

/-- The orchestrator's text command puts out the masked operand and authenticates the plaintext bit. -/
theorem effect_textCommand (decrypt b : Bool) (s : State) :
    effect (if decrypt then .decbit b else .encbit b) s =
      textEffect (plainBit s.cfg decrypt b s.dp) (b ^^ evenBit s.cfg s.dp) s := by
  cases decrypt <;> rfl

/-- The byte being assembled, with the output bit of a text command with operand `b`. -/
def State.assembled (s : State) (b : Bool) : Byte :=
  assembleBit s.cfg.msgBitOrder s.orch.pos (b ^^ evenBit s.cfg s.dp) s.orch.outByte

/-- What the step of a text command with operand `b` leaves. -/
structure TextBitTaken (b : Bool) (s t : State) : Prop where
  running : Running t
  view : t.callView = s.callView
  dp : t.dp = perBit s.cfg (plainBit s.cfg s.orch.decrypt b s.dp) s.dp
  phase : t.phase = .text
  /-- Before the eighth bit of a byte `TXTOUT` is kept. -/
  begun : s.orch.pos % 8 < 7 → t.mem.txtOut = s.mem.txtOut ∧ t.orch.outByte = s.assembled b
  /-- With the eighth bit the byte is written. -/
  full : s.orch.pos % 8 = 7 → bufWrite s.mem.txtOut (s.orch.pos / 8) (s.assembled b) = some t.mem.txtOut
  more : s.orch.pos + 1 < 8 * s.mem.txtIn.length → t.orch.stage = .text ∧ t.orch.pos = s.orch.pos + 1
  last : s.orch.pos + 1 = 8 * s.mem.txtIn.length → t.orch.stage = .pad

theorem Running.step_text {s : State} (h : Running s) (hs : s.orch.stage = .text) :
    ∃ b t, bufBit s.mem.txtIn (msgAddr s.cfg.msgBitOrder s.orch.pos) = some b ∧ step s = .next t ∧ TextBitTaken b s t := by
  obtain ⟨hopen, hdir, hpos⟩ := h.inv.text_stage hs
  obtain ⟨hp, _, _⟩ := not_init_done_error_of_open hopen
  obtain ⟨b, hb⟩ := bufBit_msgAddr (o := s.cfg.msgBitOrder) hpos
  have hi := orchCommand_of_textBit hs hb
  have hadm := h.inv.placed.command_admitted hp (by simp [hs]) (by simp [hs]) hi
  have heff := effect_textCommand s.orch.decrypt b s
  obtain ⟨u, t, v, c, eu, et, ht, hout, _⟩ :=
    h.inv.step_own_unwiped h.rst h.host (by simp [hs]) hi hadm (by rw [heff]; exact h.wipe)
  rw [heff] at eu
  refine ⟨b, t, hb, et, ?_⟩
  have hlen := ((Memory.wf_iff _).mp h.inv.mem_wf).1
  rcases advanceOrchestrator_text (t := { textEffect _ _ s with cmdValid := false }) nofun hs with
    ⟨h8, q⟩ | ⟨h8, w, out, q, _, _, _, hwrite, hmem, hnext⟩ | ⟨_, hlong, _⟩
  · obtain rfl := Host.Outcome.next.inj (q.symm.trans eu)
    subst hout
    have h8 : s.orch.pos % 8 < 7 := h8
    exact ⟨ht, rfl, rfl, rfl, fun _ => ⟨rfl, rfl⟩, fun h7 => by omega, fun _ => ⟨hs, rfl⟩, fun hl => by omega⟩
  · obtain rfl := Host.Outcome.next.inj (q.symm.trans eu)
    obtain ⟨o, out', rfl⟩ := advanceOrchestrator_frame eu
    have h8 : s.orch.pos % 8 = 7 := h8
    obtain rfl : out' = out := congrArg Memory.txtOut hmem
    subst hout
    rcases hnext with ⟨hlt, ho⟩ | ⟨hge, ho⟩ <;> obtain rfl : o = _ := ho
    · exact ⟨ht, rfl, rfl, rfl, fun h7 => by omega, fun _ => hwrite, fun _ => ⟨hs, rfl⟩, fun hl => absurd hl hlt.ne⟩
    · exact ⟨ht, rfl, rfl, rfl, fun h7 => by omega, fun _ => hwrite, fun hl => absurd hl (Nat.not_lt.mpr hge),
        fun _ => rfl⟩
  · have hlong : s.mem.txtOut.length ≤ s.orch.pos / 8 := hlong
    omega

theorem assembled_getLsbD (s : State) (b : Bool) {i : Nat} (hi : i < 8) :
    (s.assembled b).getLsbD i =
      if i = msgAddr s.cfg.msgBitOrder s.orch.pos % 8 then b ^^ ksb s.cfg s.dp.lfsr s.dp.nfsr
      else s.orch.outByte.getLsbD i :=
  setBit_getLsbD _ _ hi

theorem bufBit_mul_add (bs : List Byte) (k : Nat) {i : Nat} (hi : i < 8) :
    bufBit bs (8 * k + i) = (bufRead bs k).map fun x => x.getLsbD i := by
  rw [bufBit, show (8 * k + i) / 8 = k by omega, show (8 * k + i) % 8 = i by omega]

/-- Settles O50: the bit is assembled at its operand's address, and a full byte is written at the byte of that address. -/
theorem outputBitLandsAtItsOperandsAddress : Obligations.OutputBitLandsAtItsOperandsAddress := by
  unfold Obligations.OutputBitLandsAtItsOperandsAddress
  intro s h htakes hs hh
  obtain ⟨hr, _, _⟩ := (takesCommand_iff s).mp htakes
  obtain ⟨_, hd, he⟩ := not_init_done_error_of_open (h.orch.text_stage hs).1
  obtain ⟨b, t, hb, et, ht⟩ := Running.step_text ⟨h.orch, hr, hh, (h.engine.flagsClear hd he).wipe⟩ hs
  refine ⟨t, b, et, hb, congrArg CallView.ad ht.view, congrArg CallView.txtIn ht.view, fun h7 => ?_, fun h7 => ?_⟩
  · obtain ⟨hout, hbyte⟩ := ht.begun h7
    exact ⟨hout, fun i hi => by rw [hbyte, assembled_getLsbD s b hi]⟩
  · rw [msgAddr_div]
    have hwrite := ht.full h7
    refine ⟨fun i hi => ?_, fun i hi => ?_⟩
    · rw [bufBit_mul_add _ _ hi, bufRead_bufWrite_same hwrite, Option.map_some, assembled_getLsbD s b hi]
    · rw [bufBit, bufBit, bufRead_bufWrite_other hwrite hi]

end Sys2Proof.Machine
end

section
/-! PROOF. The text stage of a transaction: the bits put out so far, one more with each step, and the whole text (rules R34,
R55, R122, R132, R133). -/

namespace Sys2Proof.Machine

/-! Runs end to end. -/

theorem run_trans {m n : Nat} {s t : State} {r : Result} (h : Sys2Proof.core.run m s = .next t)
    (h' : Sys2Proof.core.run n t = r) : Sys2Proof.core.run (m + n) s = r := by
  induction m generalizing s with
  | zero =>
    obtain rfl : s = t := Host.Outcome.next.inj h
    rw [Nat.zero_add]
    exact h'
  | succ m ih =>
    rw [run_succ_eq_step_andThen] at h
    rw [Nat.succ_add, run_succ_eq_step_andThen]
    cases hs : step s with
    | next u => rw [hs] at h; exact ih h
    | fault q => exact nomatch q
    | refused q => rw [hs] at h; cases h

theorem run_one (s : State) : Sys2Proof.core.run 1 s = step s := by
  rw [run_succ_eq_step_andThen]
  cases step s <;> rfl

theorem run_cons {n : Nat} {s t : State} (h : step s = .next t) :
    Sys2Proof.core.run (n + 1) s = Sys2Proof.core.run n t := by
  rw [run_succ_eq_step_andThen, h]
  rfl

/-! The bits already put out (rules R34, R122). -/

/-- The first `n` output bits of the text: those of the whole bytes written and of the byte begun. -/
def State.emitted (s : State) (n : Nat) : List Bool :=
  stringBits s.cfg.msgBitOrder (s.mem.txtOut.take (n / 8)) ++ (byteBits s.cfg.msgBitOrder s.orch.outByte).take (n % 8)

theorem emitted_zero (s : State) : s.emitted 0 = [] := rfl

/-- Assembling bit `n` of a text appends it to the bits of its byte. -/
theorem byteBits_assembleBit_take (o : MsgBitOrder) (n : Nat) (v : Bool) (b : Byte) :
    (byteBits o (assembleBit o n v b)).take (n % 8 + 1) = (byteBits o b).take (n % 8) ++ [v] := by
  have hn : n % 8 < 8 := Nat.mod_lt n (by decide)
  have haddr : msgAddr o n % 8 = msgAddr o (n % 8) := by
    cases o with
    | lsbFirst => rfl
    | msbFirst => simp only [msgAddr, Nat.mod_mod, Nat.div_eq_of_lt hn]; omega
  have hbit : ∀ i, i < 8 →
      (assembleBit o n v b).getLsbD (msgAddr o i) = if i = n % 8 then v else b.getLsbD (msgAddr o i) := by
    intro i hi
    have hinj : msgAddr o i = msgAddr o (n % 8) ↔ i = n % 8 :=
      ⟨fun h => by rw [← msgAddr_msgAddr (o := o) hi, h, msgAddr_msgAddr hn], fun h => by rw [h]⟩
    rw [assembleBit, haddr, setBit_getLsbD b v (msgAddr_lt hi)]
    exact if_congr hinj rfl rfl
  refine List.ext_getElem? fun i => ?_
  rcases Nat.lt_trichotomy i (n % 8) with h | h | h
  · rw [List.getElem?_take_of_lt (by omega), List.getElem?_append_left (by simp; omega), List.getElem?_take_of_lt h,
      byteBits_getElem? o _ (by omega), byteBits_getElem? o _ (by omega), hbit i (by omega), if_neg (by omega)]
  · subst h
    rw [List.getElem?_take_of_lt (by omega), byteBits_getElem? o _ hn, hbit _ hn, if_pos rfl]
    simp [Nat.min_eq_left hn.le]
  · rw [List.getElem?_eq_none (by simp; omega), List.getElem?_eq_none (by simp; omega)]

/-- Writing byte `k` appends its bits to those of the bytes before it. -/
theorem stringBits_bufWrite_take (o : MsgBitOrder) {bs out : List Byte} {k : Nat} {b : Byte}
    (h : bufWrite bs k b = some out) :
    stringBits o (out.take (k + 1)) = stringBits o (bs.take k) ++ byteBits o b := by
  obtain ⟨hk, rfl⟩ : k < bs.length ∧ bs.set k b = out := by simpa [bufWrite] using h
  have : (bs.set k b).take (k + 1) = bs.take k ++ [b] := by
    rw [List.take_add_one, List.take_set_of_le le_rfl]
    simp [hk]
  rw [this, stringBits_append]
  simp

/-- A text command's step emits one bit more. -/
theorem TextBitTaken.emitted {b : Bool} {s t : State} (h : TextBitTaken b s t) :
    t.emitted (s.orch.pos + 1) = s.emitted s.orch.pos ++ [b ^^ evenBit s.cfg s.dp] := by
  have hcfg : t.cfg = s.cfg := congrArg CallView.cfg h.view
  have hbits := byteBits_assembleBit_take s.cfg.msgBitOrder s.orch.pos (b ^^ evenBit s.cfg s.dp) s.orch.outByte
  unfold State.emitted
  rw [hcfg, List.append_assoc, ← hbits]
  rcases Nat.lt_or_ge (s.orch.pos % 8) 7 with h7 | h7
  · obtain ⟨hout, hbyte⟩ := h.begun h7
    rw [hout, hbyte, show (s.orch.pos + 1) / 8 = s.orch.pos / 8 by omega,
      show (s.orch.pos + 1) % 8 = s.orch.pos % 8 + 1 by omega, State.assembled]
  · have h7 : s.orch.pos % 8 = 7 := by omega
    rw [show (s.orch.pos + 1) / 8 = s.orch.pos / 8 + 1 by omega, show (s.orch.pos + 1) % 8 = 0 by omega,
      stringBits_bufWrite_take _ (h.full h7), h7, State.assembled, List.take_zero, List.append_nil,
      List.take_of_length_le (byteBits_length ..).le]

/-! The text stage. -/

/-- The orchestrator has sent `n` bits of the text: it is at the next one, or at PAD. -/
structure TextSent (n : Nat) (s : State) : Prop where
  running : Running s
  more : n < 8 * s.mem.txtIn.length → s.orch.stage = .text ∧ s.orch.pos = n
  last : n = 8 * s.mem.txtIn.length → s.orch.stage = .pad

/-- The bits of the text from bit `n` on. -/
def State.textFrom (s : State) (n : Nat) : List Bool := (stringBits s.cfg.msgBitOrder s.mem.txtIn).drop n

/-- The rest of a text, bit by bit. -/
theorem TextSent.run {k n : Nat} {s : State} (h : TextSent n s) (hk : n + k = 8 * s.mem.txtIn.length) :
    ∃ t : State, Sys2Proof.core.run k s = .next t ∧ TextSent (n + k) t ∧ t.callView = s.callView ∧
      t.emitted (n + k) = s.emitted n ++ (textBits s.cfg s.orch.decrypt (s.textFrom n) s.dp).1 ∧
      t.dp = (textBits s.cfg s.orch.decrypt (s.textFrom n) s.dp).2 := by
  induction k generalizing n s with
  | zero =>
    have hnil : s.textFrom n = [] := List.drop_eq_nil_of_le (by rw [stringBits_length]; omega)
    rw [hnil, textBits_nil]
    exact ⟨s, rfl, h, rfl, (List.append_nil _).symm, rfl⟩
  | succ k ih =>
    obtain ⟨hs, rfl⟩ := h.more (by omega)
    obtain ⟨b, u, hb, eu, hu⟩ := h.running.step_text hs
    have hcfg : u.cfg = s.cfg := congrArg CallView.cfg hu.view
    have htxt : u.mem.txtIn = s.mem.txtIn := congrArg CallView.txtIn hu.view
    have hdec : u.orch.decrypt = s.orch.decrypt := congrArg CallView.decrypt hu.view
    have hcons : s.textFrom s.orch.pos = b :: u.textFrom (s.orch.pos + 1) := by
      rw [State.textFrom, State.textFrom, hcfg, htxt]
      exact (List.drop_eq_getElem?_toList_append ..).trans (by rw [stringBits_getElem?, hb]; rfl)
    have hsent : TextSent (s.orch.pos + 1) u := ⟨hu.running, htxt ▸ hu.more, htxt ▸ hu.last⟩
    obtain ⟨t, et, ht, hview, hemit, hdp⟩ := ih hsent (by rw [htxt]; omega)
    rw [hcfg, hdec, hu.dp] at hemit hdp
    rw [Nat.add_right_comm, Nat.add_assoc] at ht hemit
    refine ⟨t, (run_cons eu).trans et, ht, hview.trans hu.view, ?_, ?_⟩
    · rw [hemit, hu.emitted, hcons, textBits_cons, List.append_assoc]; rfl
    · rw [hdp, hcons, textBits_cons]

/-- A text sent whole: `TXTOUT` and the registers are those of the text as a function. -/
theorem TextSent.run_whole {s : State} (h : TextSent 0 s) :
    ∃ t : State, Sys2Proof.core.run (8 * s.mem.txtIn.length) s = .next t ∧ Running t ∧ t.orch.stage = .pad ∧
      t.callView = s.callView ∧ (t.mem.txtOut, t.dp) = textBytes s.cfg s.orch.decrypt s.mem.txtIn s.dp := by
  obtain ⟨t, et, ht, hview, hemit, hdp⟩ := h.run (Nat.zero_add _)
  have hcfg : t.cfg = s.cfg := congrArg CallView.cfg hview
  have htxt : t.mem.txtIn = s.mem.txtIn := congrArg CallView.txtIn hview
  have hlen := ((Memory.wf_iff _).mp ht.running.inv.mem_wf).1
  rw [Nat.zero_add] at ht hemit
  refine ⟨t, et, ht.running, ht.last (by rw [htxt]), hview, ?_⟩
  have hall : s.textFrom 0 = stringBits s.cfg.msgBitOrder s.mem.txtIn := rfl
  have hout : t.emitted (8 * s.mem.txtIn.length) = stringBits s.cfg.msgBitOrder t.mem.txtOut := by
    unfold State.emitted
    rw [hcfg, Nat.mul_div_cancel_left _ (by decide), Nat.mul_mod_right, List.take_zero, List.append_nil,
      List.take_of_length_le (by rw [hlen, htxt])]
  rw [hout, emitted_zero, List.nil_append, hall, ← textBytes_eq_textBits] at hemit
  rw [hall, ← textBytes_eq_textBits] at hdp
  exact Prod.ext (stringBits_injective _ hemit) hdp

end Sys2Proof.Machine
end

section
/-! PROOF. A transaction of the orchestrator's from LOAD to PAD: the registers, ACC and `TXTOUT` are those of the transaction
as a function (rules R9, R91, R92, R104, R105, R132 to R134). -/

namespace Sys2Proof.Machine

/-! The AD stream (rules R9, R104, R132). -/

/-- The orchestrator has sent `n` bits of the AD stream: it is at the next one, or the text begins. -/
structure AdSent (stream : List Byte) (n : Nat) (s : State) : Prop where
  running : Running s
  encodes : adStream s.mem.ad = some stream
  more : n < 8 * stream.length → s.orch.stage = .adStream ∧ s.orch.pos = n ∧ s.phase = .ad
  last : n = 8 * stream.length → TextSent 0 s

/-- The step of an AD bit authenticates it; after the last one the text begins, or PAD where there is none. -/
theorem AdSent.step {stream : List Byte} {n : Nat} {s : State} (h : AdSent stream n s) (hn : n < 8 * stream.length) :
    ∃ m t, (stringBits s.cfg.msgBitOrder stream)[n]? = some m ∧ step s = .next t ∧ AdSent stream (n + 1) t ∧
      t.callView = s.callView ∧ t.dp = perBit s.cfg m s.dp := by
  obtain ⟨hs, rfl, hp⟩ := h.more hn
  obtain ⟨m, hm⟩ := bufBit_msgAddr (o := s.cfg.msgBitOrder) hn
  have hi := orchCommand_of_adBit hs h.encodes hm
  obtain ⟨u, t, v, c, eu, et, ht, hout, _⟩ :=
    h.running.inv.step_own_unwiped h.running.rst h.running.host (by simp [hs]) hi (phaseAfter_adbit.mpr ⟨hp, rfl⟩)
      h.running.wipe
  have hadv := advanceOrchestrator_adStream (t := { adbitEffect m s with cmdValid := false }) (hp ▸ nofun) hs h.encodes
  obtain rfl := Host.Outcome.next.inj (hadv.symm.trans eu)
  refine ⟨m, t, (stringBits_getElem? ..).trans hm, et, ?_⟩
  split at hout
  case isTrue hlt =>
    subst hout
    exact ⟨⟨ht, h.encodes, fun _ => ⟨hs, rfl, hp⟩, fun hl => absurd hl hlt.ne⟩, rfl, rfl⟩
  case isFalse hge =>
    have hempty : s.mem.txtIn.isEmpty = true ↔ 8 * s.mem.txtIn.length = 0 := by simp
    have htext : TextSent 0 t := by
      subst hout
      refine ⟨ht, fun hlt => ⟨?_, rfl⟩, fun hl => ?_⟩
      · exact if_neg fun he => absurd (hempty.mp he) (Nat.ne_of_gt hlt)
      · exact if_pos (hempty.mpr hl.symm)
    subst hout
    exact ⟨⟨ht, h.encodes, fun hlt => absurd hlt hge, fun _ => htext⟩, rfl, rfl⟩

/-- The rest of the AD stream, bit by bit. -/
theorem AdSent.run {stream : List Byte} {k n : Nat} {s : State} (h : AdSent stream n s) (hk : n + k = 8 * stream.length) :
    ∃ t : State, Sys2Proof.core.run k s = .next t ∧ TextSent 0 t ∧ t.callView = s.callView ∧
      t.dp = authBits s.cfg ((stringBits s.cfg.msgBitOrder stream).drop n) s.dp := by
  induction k generalizing n s with
  | zero =>
    rw [List.drop_eq_nil_of_le (by rw [stringBits_length]; omega)]
    exact ⟨s, rfl, h.last (by omega), rfl, rfl⟩
  | succ k ih =>
    obtain ⟨m, u, hm, eu, hu, hview, hdp⟩ := h.step (by omega)
    have hcfg : u.cfg = s.cfg := congrArg CallView.cfg hview
    obtain ⟨t, et, ht, hview', hdp'⟩ := ih hu (by omega)
    refine ⟨t, (run_cons eu).trans et, ht, hview'.trans hview, ?_⟩
    rw [hdp', hdp, hcfg, List.drop_eq_getElem?_toList_append (i := n), hm]
    rfl

/-! LOAD, INIT and PAD (rules R91, R92, R105, R132). -/

/-- The step of the orchestrator's LOAD in IDLE or DONE. -/
theorem OrchInv.step_load {s : State} (h : OrchInv s) (hr : s.rst = false) (hh : s.host = [])
    (hp : s.phase = .idle ∨ s.phase = .done) (hs : s.orch.stage = .load) :
    ∃ t, step s = .next t ∧ Running t ∧ t.phase = .init ∧ t.ctr = 0 ∧ t.k = s.key ∧
      t.dp = loadDatapath s.key s.nonce s.dp ∧ t.orch.stage = .adStream ∧ t.orch.pos = 0 ∧
      t.callView = s.clearResult.callView := by
  obtain ⟨u, t, v, c, eu, et, ht, hout, _⟩ :=
    h.step_own_unwiped hr hh (by simp [hs]) (orchCommand_load hs) (phaseAfter_load.mpr ⟨hp, rfl⟩) rfl
  have hadv := advanceOrchestrator_load (t := { loadEffect s.orch.decrypt s with cmdValid := false }) nofun hs
  obtain rfl := Host.Outcome.next.inj (hadv.symm.trans eu)
  refine ⟨t, et, ht, ?_⟩
  subst hout
  exact ⟨rfl, rfl, rfl, rfl, rfl, rfl, rfl⟩

/-- The initialisation steps of a running transaction leave the orchestrator waiting. -/
theorem Running.run_init {s : State} (h : Running s) (hp : s.phase = .init) {n : Nat} (hn : s.ctr.toNat + n ≤ 512) :
    ∃ t : State, Sys2Proof.core.run n s = .next t ∧ InitialisedFor n s t ∧ Running t ∧ t.callView = s.callView ∧
      t.orch = s.orch := by
  induction n with
  | zero => exact ⟨s, rfl, initialisedFor_zero h.rst hp h.inv.driven h.host, h, rfl, rfl⟩
  | succ n ih =>
    obtain ⟨u, eu, hu, hrun, hview, horch⟩ := ih (by omega)
    have hpu : u.phase = .init := hu.phase.trans (if_pos (by omega))
    obtain ⟨t, et, ht⟩ := hu.succ (by omega)
    have hdrive : drivePorts (initStep u) = .next t := (step_init hu.rst hpu).symm.trans et
    obtain ⟨w, ew, hw⟩ := drivePorts_ready (initStep_ready hrun.inv hpu)
    obtain rfl : t = w := Host.Outcome.next.inj (hdrive.symm.trans ew)
    obtain ⟨v, c, hout, _⟩ := drivePorts_without_host (s := initStep u) hrun.host hdrive
    refine ⟨t, run_trans eu ((run_one u).trans et), ht, ⟨hw, ht.rst, ht.host, ?_⟩, ?_, ?_⟩
    · rw [hout]; exact hrun.wipe
    · rw [hout]; exact hview
    · rw [hout]; exact horch

theorem Running.step_pad {s : State} (h : Running s) (hs : s.orch.stage = .pad) :
    ∃ t, step s = .next t ∧ Running t ∧ t.orch.stage = .finish ∧ t.callView = s.callView ∧
      t.mem.txtOut = s.mem.txtOut ∧ t.dp = perBit s.cfg true s.dp := by
  obtain ⟨u, t, v, c, eu, et, ht, hout, _⟩ :=
    h.inv.step_own_unwiped h.rst h.host (by simp [hs]) (orchCommand_pad hs)
      (phaseAfter_pad.mpr ⟨(h.inv.pad_stage hs).1, rfl⟩) h.wipe
  have hadv := advanceOrchestrator_pad (t := { padEffect s with cmdValid := false }) nofun hs
  obtain rfl := Host.Outcome.next.inj (hadv.symm.trans eu)
  refine ⟨t, et, ht, ?_⟩
  subst hout
  exact ⟨rfl, rfl, rfl, rfl⟩

/-! The whole transaction. -/

/-- From LOAD on the port to the first bit of the text: the registers are those of the transaction as a function. -/
theorem OrchInv.run_to_text {s : State} {stream : List Byte} (h : OrchInv s) (hr : s.rst = false) (hh : s.host = [])
    (hp : s.phase = .idle ∨ s.phase = .done) (hs : s.orch.stage = .load) (hstream : adStream s.mem.ad = some stream) :
    ∃ t : State, Sys2Proof.core.run (1 + 512 + 8 * stream.length) s = .next t ∧ TextSent 0 t ∧
      t.callView = s.clearResult.callView ∧ t.dp = beforeText s.cfg s.key s.nonce stream Datapath.zero := by
  obtain ⟨u, eu, hu, hpu, hctr, hk, hdp, hstage, hpos, hview⟩ := h.step_load hr hh hp hs
  have hctr : u.ctr.toNat = 0 := by rw [hctr]; rfl
  have hcfg : u.cfg = s.cfg := congrArg CallView.cfg hview
  obtain ⟨v, ev, hinit, hv, hviewv, horch⟩ := hu.run_init hpu (n := 512) (by omega)
  have hview := hviewv.trans hview
  have hencodes : adStream v.mem.ad = some stream := (congrArg adStream (congrArg CallView.ad hview)).trans hstream
  obtain ⟨_, _, _, hstream', hwithin⟩ := hv.inv.ad_stage (by rw [horch, hstage])
  obtain rfl := Option.some.inj (hencodes.symm.trans hstream')
  rw [horch, hpos] at hwithin
  have hsent : AdSent stream 0 v :=
    ⟨hv, hencodes, fun _ => ⟨by rw [horch, hstage], by rw [horch, hpos], hinit.phase.trans (if_neg (by omega))⟩,
      fun hl => absurd hl hwithin.ne⟩
  obtain ⟨t, et, ht, hviewt, hdpt⟩ := hsent.run (Nat.zero_add _)
  refine ⟨t, run_trans (run_trans ((run_one s).trans eu) ev) et, ht, hviewt.trans hview, ?_⟩
  rw [hdpt, hinit.dp, hctr, hinit.cfg, hcfg, hk, hdp]
  exact congrArg _ (initialisationDependsOnKeyAndNonceOnly s.cfg s.key s.nonce s.dp Datapath.zero).1

/-- From LOAD on the port to TAG or VERIFY on the port: `TXTOUT` and ACC are the results of the transaction as a function. -/
theorem OrchInv.run_to_finish {s : State} {stream : List Byte} (h : OrchInv s) (hr : s.rst = false) (hh : s.host = [])
    (hp : s.phase = .idle ∨ s.phase = .done) (hs : s.orch.stage = .load) (hstream : adStream s.mem.ad = some stream) :
    ∃ t : State, Sys2Proof.core.run (1 + 512 + 8 * stream.length + 8 * s.mem.txtIn.length + 1) s = .next t ∧ Running t ∧
      t.orch.stage = .finish ∧ t.callView = s.clearResult.callView ∧
      runTransaction s.cfg s.orch.decrypt s.key s.nonce s.mem.ad s.mem.txtIn Datapath.zero =
        some (t.mem.txtOut, t.dp.acc) := by
  obtain ⟨u, eu, hu, hview, hdp⟩ := h.run_to_text hr hh hp hs hstream
  have hcfg : u.cfg = s.cfg := congrArg CallView.cfg hview
  have htxt : u.mem.txtIn = s.mem.txtIn := congrArg CallView.txtIn hview
  have hdec : u.orch.decrypt = s.orch.decrypt := congrArg CallView.decrypt hview
  obtain ⟨v, ev, hv, hpad, hviewv, htext⟩ := hu.run_whole
  rw [hcfg, hdec, hdp, htxt] at htext
  rw [htxt] at ev
  obtain ⟨t, et, ht, hfinish, hviewt, hout, hdpt⟩ := hv.step_pad hpad
  refine ⟨t, run_trans (run_trans eu ev) ((run_one v).trans et), ht, hfinish, hviewt.trans (hviewv.trans hview), ?_⟩
  rw [runTransaction, hstream, Option.map_some, ← htext, hout, hdpt,
    show v.cfg = s.cfg from congrArg CallView.cfg (hviewv.trans hview)]

end Sys2Proof.Machine
end

section
/-! PROOF. A call of ENCRYPT or DECRYPT from the step that takes it to TAG or VERIFY (rules R124, R125, R130 to R133). -/

namespace Sys2Proof.Machine

/-! The call. -/

/-- The state in which a call with allowed lengths has been taken: LOAD is on the port, the call's inputs on theirs. -/
def calledState (decrypt : Bool) (key nonce tag ad text : List Byte) (s : State) : State :=
  { startCall decrypt key nonce tag ad text { s.quiet with rst := false, host := [] } with
    cmdValid := true, cmd := encode (.load decrypt) }

/-- What a call with allowed lengths leaves for the transaction. -/
structure CallTaken (decrypt : Bool) (key nonce tag ad text : List Byte) (s t : State) : Prop where
  inv : OrchInv t
  rst : t.rst = false
  host : t.host = []
  phase : t.phase = s.phase
  stage : t.orch.stage = .load
  key : t.key = portOfBytes 128 key
  nonce : t.nonce = portOfBytes 96 nonce
  tagIn : t.tagIn = if decrypt then portOfBytes 64 tag else s.tagIn
  ad : t.mem.ad = ad
  txtIn : t.mem.txtIn = text
  cfg : t.cfg = s.cfg
  decrypt : t.orch.decrypt = decrypt

theorem calledState_callTaken {decrypt : Bool} {key nonce tag ad text : List Byte} {s : State} (hp : s.phase ≠ .init)
    (hl : lengthsAllowed decrypt key nonce tag ad = true) :
    CallTaken decrypt key nonce tag ad text s (calledState decrypt key nonce tag ad text s) := by
  obtain ⟨_, _, _, had⟩ := lengthsAllowed_iff.mp hl
  have hwf : (⟨ad, text, zeroBytes text⟩ : Memory).wf = true := (Memory.wf_iff _).mpr ⟨List.length_replicate, had⟩
  unfold calledState startCall
  rw [if_pos hl]
  refine ⟨OrchReady.inv ⟨?placed, fun _ _ => zeroBytes_all_zero, ?holds⟩ fun _ => ⟨rfl, _, rfl, rfl⟩,
    rfl, rfl, rfl, rfl, rfl, rfl, rfl, rfl, rfl, rfl, rfl⟩
  case placed => exact ⟨fun hi => absurd hi hp, hwf, fun _ => rfl, nofun, nofun, nofun, nofun⟩
  case holds =>
    intro _ _ i hi
    cases hi
    rfl

/-- The step in which a call with allowed lengths is taken. -/
theorem step_call {decrypt : Bool} {key nonce tag ad text : List Byte} {s : State} (hr : s.rst = false)
    (hf : s.portFree = true) (hp : s.phase ≠ .init) (hl : lengthsAllowed decrypt key nonce tag ad = true)
    (hm : hostMove { s.quiet with rst := false } =
      startCall decrypt key nonce tag ad text { s.quiet with rst := false, host := [] }) :
    ∃ t : State, step s = .next t ∧ CallTaken decrypt key nonce tag ad text s t := by
  obtain ⟨_, hv⟩ := (portFree_iff s).mp hf
  refine ⟨_, ?_, calledState_callTaken hp hl⟩
  rw [step_waits hr hp hv, drivePorts, hm, calledState, startCall, if_pos hl]
  simp [presentOrchestrator, orchCommand, hv]

theorem ne_init_of_idle_or_done {p : Phase} (h : p = .idle ∨ p = .done) : p ≠ .init := by
  rcases h with rfl | rfl <;> decide

/-- From the call to the last command on the port, which the last step takes. -/
theorem run_call {decrypt : Bool} {key nonce tag ad text pre : List Byte} {s : State} (hr : s.rst = false)
    (hf : s.portFree = true) (hp : s.phase = .idle ∨ s.phase = .done)
    (hl : lengthsAllowed decrypt key nonce tag ad = true) (hpre : encodeDer ad.length = some pre)
    (hm : hostMove { s.quiet with rst := false } =
      startCall decrypt key nonce tag ad text { s.quiet with rst := false, host := [] }) :
    ∃ t : State, Sys2Proof.core.run (516 + 8 * (pre.length + ad.length + text.length)) s = step t ∧ Running t ∧
      t.orch.stage = .finish ∧
      t.callView = ⟨ad, text, if decrypt then portOfBytes 64 tag else s.tagIn, s.cfg, decrypt, false, false, false, 0⟩ ∧
      runTransaction s.cfg decrypt (portOfBytes 128 key) (portOfBytes 96 nonce) ad text Datapath.zero =
        some (t.mem.txtOut, t.dp.acc) := by
  obtain ⟨u, eu, hu⟩ := step_call hr hf (ne_init_of_idle_or_done hp) hl hm
  have hstream : adStream u.mem.ad = some (pre ++ ad) := by rw [hu.ad, adStream, hpre, Option.map_some]
  obtain ⟨t, et, ht, hfinish, hview, hresult⟩ := hu.inv.run_to_finish hu.rst hu.host (by rwa [hu.phase]) hu.stage hstream
  rw [hu.txtIn, List.length_append] at et
  refine ⟨t, ?_, ht, hfinish, hview.trans ?_, ?_⟩
  · rw [show 516 + 8 * (pre.length + ad.length + text.length) =
      1 + (1 + 512 + 8 * (pre.length + ad.length) + 8 * text.length + 1) + 1 by omega]
    exact run_trans (run_trans ((run_one s).trans eu) et) (run_one t)
  · rw [State.callView, ← hu.ad, ← hu.txtIn, ← hu.tagIn, ← hu.cfg, ← hu.decrypt]
    rfl
  · rw [← hresult, hu.cfg, hu.decrypt, hu.key, hu.nonce, hu.ad, hu.txtIn]

/-! The last command (rules R124, R125, R131). -/

/-- TAG ends an ENCRYPT: the tag is ACC, and `TXTOUT` is kept. -/
theorem Running.step_tag {s : State} (h : Running s) (hs : s.orch.stage = .finish) (hdec : s.orch.decrypt = false) :
    ∃ t : State, step s = .next t ∧ t.mem.txtOut = s.mem.txtOut ∧ t.tago = s.dp.acc ∧ t.phase = .done ∧ t.dir = false ∧
      t.tagv = true ∧ t.okv = s.okv ∧ t.wipe = false ∧ t.portFree = true := by
  obtain ⟨hp, hdir⟩ := h.inv.finish_stage hs
  have hdir : s.dir = false := hdir.trans hdec
  have hi : orchCommand s = .ok .tag := by rw [orchCommand_finish hs, hdec]; rfl
  obtain ⟨u, t, v, c, eu, et, _, hout, hport⟩ :=
    h.inv.step_own_unwiped h.rst h.host (by simp [hs]) hi (phaseAfter_tag.mpr ⟨hp, hdir, rfl⟩) h.wipe
  have hadv := advanceOrchestrator_finish (t := { tagEffect s with cmdValid := false }) nofun hs
  obtain rfl := Host.Outcome.next.inj (hadv.symm.trans eu)
  obtain rfl := hport rfl
  subst hout
  exact ⟨_, et, rfl, rfl, rfl, hdir, rfl, rfl, h.wipe, rfl⟩

/-- VERIFY ends a DECRYPT: `ok` is the comparison, `wipe` its opposite, and `TXTOUT` is zeroed unless it holds. -/
theorem Running.step_verify {s : State} (h : Running s) (hs : s.orch.stage = .finish) (hdec : s.orch.decrypt = true) :
    ∃ t : State, step s = .next t ∧
      t.ok = (s.dp.acc == s.tagIn) ∧ t.mem.txtOut = (if t.ok then s.mem.txtOut else zeroBytes s.mem.txtOut) ∧
      t.wipe = !t.ok ∧ t.phase = .done ∧ t.dir = true ∧ t.okv = true ∧ t.tagv = s.tagv ∧ t.tago = s.tago ∧
      t.portFree = true := by
  obtain ⟨hp, hdir⟩ := h.inv.finish_stage hs
  have hdir : s.dir = true := hdir.trans hdec
  have hi : orchCommand s = .ok .verify := by rw [orchCommand_finish hs, hdec]; rfl
  obtain ⟨u, t, v, c, eu, et, _, hout, hport, hz⟩ :=
    h.inv.step_own h.rst h.host (by simp [hs]) hi (phaseAfter_verify.mpr ⟨hp, hdir, rfl⟩)
  have hadv := advanceOrchestrator_finish (t := { verifyEffect s with cmdValid := false }) nofun hs
  obtain rfl := Host.Outcome.next.inj (hadv.symm.trans eu)
  obtain rfl := hport rfl
  cases hok : s.dp.acc == s.tagIn with
  | true =>
    have hwipe : (verifyEffect s).wipe = false := by simp [hok, h.wipe]
    rw [release_eq_self (.inr (hz.trans hwipe))] at hout
    subst hout
    have hok : (verifyEffect s).ok = true := hok
    exact ⟨_, et, hok, (if_pos hok).symm, hwipe.trans (congrArg Bool.not hok).symm, rfl, hdir, rfl, rfl, rfl, rfl⟩
  | false =>
    have hwipe : (verifyEffect s).wipe = true := by simp [hok]
    have hknows : s.orch.knowsM = true := h.inv.knows_m (by simp [hs])
    rw [release_zeroes (by exact hknows) (hz.trans hwipe)] at hout
    subst hout
    have hok : (verifyEffect s).ok = false := hok
    exact ⟨_, et, hok, (if_neg (Bool.eq_false_iff.mp hok)).symm, hwipe.trans (congrArg Bool.not hok).symm, rfl, hdir, rfl,
      rfl, rfl, rfl⟩

/-- A length that can be encoded is below 2^64 (rule R100). -/
theorem lt_of_encodeDer {n : Nat} {pre : List Byte} (h : encodeDer n = some pre) : n < 2 ^ 64 := by
  refine Nat.not_le.mp fun hn => ?_
  rw [encodeDer_refused hn] at h
  cases h

/-! The two calls. -/

/-- Settles O48: the run from the call to TAG on the port, and TAG. -/
theorem encryptCallGivesCiphertextAndTag : Obligations.EncryptCallGivesCiphertextAndTag := by
  unfold Obligations.EncryptCallGivesCiphertextAndTag
  intro s key nonce ad text pre hr hf hp hh hkey hnonce hpre
  have hl : lengthsAllowed false key nonce [] ad = true := lengthsAllowed_iff.mpr ⟨hkey, hnonce, nofun, lt_of_encodeDer hpre⟩
  have hpi := ne_init_of_idle_or_done hp
  obtain ⟨u, eu, hu, hfinish, hview, hresult⟩ :=
    run_call hr hf hp hl hpre (hostMove_encrypt (s := { s.quiet with rst := false }) hf hpi hh)
  obtain ⟨t, et, hout, htago, hphase, hdir, htagv, hokv, hwipe, hport⟩ :=
    hu.step_tag hfinish (congrArg CallView.decrypt hview)
  refine ⟨t, eu.trans et, ?_, hphase, hdir, htagv, hokv.trans (congrArg CallView.okv hview), hwipe, hport⟩
  rw [hout, htago]
  exact hresult

/-- Settles O49: the run from the call to VERIFY on the port, and VERIFY. -/
theorem decryptCallGivesPlaintextOrZeros : Obligations.DecryptCallGivesPlaintextOrZeros := by
  unfold Obligations.DecryptCallGivesPlaintextOrZeros
  intro s key nonce tag ad text pre hr hf hp hh hkey hnonce htag hpre
  have hl : lengthsAllowed true key nonce tag ad = true :=
    lengthsAllowed_iff.mpr ⟨hkey, hnonce, fun _ => htag, lt_of_encodeDer hpre⟩
  have hpi := ne_init_of_idle_or_done hp
  obtain ⟨u, eu, hu, hfinish, hview, hresult⟩ :=
    run_call hr hf hp hl hpre (hostMove_decrypt (s := { s.quiet with rst := false }) hf hpi hh)
  obtain ⟨t, et, hok, hout, hwipe, hphase, hdir, hokv, htagv, htago, hport⟩ :=
    hu.step_verify hfinish (congrArg CallView.decrypt hview)
  have htagIn : u.tagIn = portOfBytes 64 tag := congrArg CallView.tagIn hview
  refine ⟨t, eu.trans et, ?_, hphase, hdir, hokv, htagv.trans (congrArg CallView.tagv hview),
    htago.trans (congrArg CallView.tago hview), by rw [hwipe, Bool.not_eq_true'], hport⟩
  rw [decryptTransaction, hresult, Option.map_some, ← htagIn, ← hok, hout]
  cases t.ok <;> rfl

end Sys2Proof.Machine
end

section
/-! PROOF. The way into ERROR and the only ways out of it (rules R53, R143 to R149). -/

namespace Sys2Proof.Machine

open Spec

/-- A word outside the list of rule R48 enters the fault with IllegalCommand (rules R143, R146). -/
theorem takeWord_not_legal {w : CmdWord} {s : State} (hi : s.phase ≠ .init) (he : s.phase ≠ .error)
    (hw : w ∉ legalWords) : takeWord w s = .next (takeFault .illegalCommand s) := by
  have hnone : decode w = none := Option.not_isSome_iff_eq_none.mp (mt (decode_isSome_iff w).mp hw)
  rw [takeWord_of_illegal hnone, takeIllegal_faults hi he]

/-- A command that rule R52's table refuses enters the fault with ProtocolViolation (rules R144, R146). -/
theorem takeWord_not_admitted {w : CmdWord} {i : Instr} {s : State} (hi : s.phase ≠ .init) (he : s.phase ≠ .error)
    (hd : decode w = some i) (h : tableR52 i s.phase s.dir = none) :
    takeWord w s = .next (takeFault .protocolViolation s) := by
  rw [takeWord_of_decode hd, exec_refused hi he ((phaseAfter_eq_tableR52 hi he i s.dir).trans h)]

/-- Settles O20: both faults are the one fault entry, which runs in place of the command's own effect. -/
theorem faultEntryIsTheSameForBothFaults : Obligations.FaultEntryIsTheSameForBothFaults := by
  unfold Obligations.FaultEntryIsTheSameForBothFaults
  intro w s hi he
  exact ⟨fun hw => ⟨_, _, (takeWord_not_legal hi he hw).trans (congrArg _ (takeFault_eq_faultState _ s))⟩,
    fun i hd h => ⟨_, _, (takeWord_not_admitted hi he hd h).trans (congrArg _ (takeFault_eq_faultState _ s))⟩⟩

/-- What follows a command, the orchestrator's and the host's moves included, leaves the engine as the command left it. -/
theorem afterCommand_keeps_engine {s t v : State} (e : afterCommand s (.next t) = .next v) : v.engine = t.engine := by
  obtain ⟨u, eu, ev⟩ := afterCommand_eq_next e
  obtain ⟨o, out, hu⟩ := advanceOrchestrator_frame eu
  calc v.engine = (release s u).engine := (drivePorts_engine ev).1
    _ = u.engine := release_engine s u
    _ = t.engine := by rw [hu]; rfl

/-- Without reset and CLEAR a step in ERROR waits or consumes the word, and either changes the output port only (rule R53). -/
theorem step_error_engine {s t : State} (he : s.phase = .error) (hr : s.rst = false)
    (hc : ¬ (s.cmdValid = true ∧ s.cmd = encode .clear)) (e : step s = .next t) : t.engine = s.quiet.engine := by
  have hi : s.phase ≠ .init := by simp [he]
  cases hv : s.cmdValid with
  | false =>
    rw [step_waits hr hi hv] at e
    exact (drivePorts_engine e).1
  | true =>
    rw [step_command hr hi hv, takeWord_error he fun hw => hc ⟨hv, hw⟩] at e
    exact afterCommand_keeps_engine e

/-- Settles O21: the step leaves the engine of `State.quiet`, which keeps the phase, the fault's code and `wipe`. -/
theorem errorIsLeftOnlyByClearOrReset : Obligations.ErrorIsLeftOnlyByClearOrReset := by
  unfold Obligations.ErrorIsLeftOnlyByClearOrReset
  intro s t he hr hc e
  have heng : t.engine = s.quiet.engine := step_error_engine he hr hc e
  exact ⟨(congrArg EngineView.phase heng).trans he, congrArg EngineView.err heng, congrArg EngineView.errcode heng,
    congrArg EngineView.wipe heng⟩

end Sys2Proof.Machine
end

section
/-! PROOF. The buffers while the orchestrator does not know M (rules R131, R161; log entries 5 and 18). -/

namespace Sys2Proof.Machine

/-- The host's next move, if there is one, is not a call of ENCRYPT or DECRYPT (rule R130). -/
structure NoCallNext (moves : List HostMove) : Prop where
  encrypt : ∀ key nonce ad text, moves.head? ≠ some (.encrypt key nonce ad text)
  decrypt : ∀ key nonce tag ad text, moves.head? ≠ some (.decrypt key nonce tag ad text)

/-- Only a call brings the orchestrator new buffers and its M. -/
theorem hostMove_keeps_buffers {s : State} (h : NoCallNext s.host) :
    (hostMove s).mem = s.mem ∧ (hostMove s).orch.knowsM = s.orch.knowsM := by
  cases hh : s.host with
  | nil => simp [hostMove, hh]
  | cons move rest =>
    rw [hh] at h
    unfold hostMove
    rw [hh]
    cases move with
    | encrypt => exact absurd rfl (h.encrypt _ _ _ _)
    | decrypt => exact absurd rfl (h.decrypt _ _ _ _ _)
    | command => dsimp only; split <;> exact ⟨rfl, rfl⟩
    | idle | reset | withdraw | abandon => exact ⟨rfl, rfl⟩

theorem drivePorts_keeps_buffers {s t : State} (h : NoCallNext s.host) (e : drivePorts s = .next t) :
    t.mem = s.mem ∧ t.orch.knowsM = s.orch.knowsM := by
  have hm := hostMove_keeps_buffers (s := { s with rst := false }) h
  unfold drivePorts at e
  rcases presentOrchestrator_cases (hostMove { s with rst := false }) with ⟨_, q⟩ | ⟨_, _, ⟨i, _, q⟩ | ⟨r, _, q⟩⟩ <;>
    rw [q] at e <;> cases e
  all_goals exact hm

/-- After a raw command nothing reaches a buffer while M is not known: the orchestrator is at rest, and the release rule does
not apply. -/
theorem afterCommand_keeps_buffers {s t v : State} (hs : t.orch.stage = .idle) (hm : t.orch.knowsM = false)
    (h : NoCallNext t.host) (e : afterCommand s (.next t) = .next v) : v.mem = t.mem ∧ v.orch.knowsM = false := by
  obtain ⟨u, eu, ev⟩ := afterCommand_eq_next e
  obtain ⟨hknows, _, hmem⟩ := advanceOrchestrator_buffers eu
  obtain ⟨_, _, hu⟩ := advanceOrchestrator_frame eu
  have hum : u.orch.knowsM = false := hknows.trans hm
  rw [release_eq_self (.inl hum)] at ev
  obtain ⟨hvmem, hvm⟩ := drivePorts_keeps_buffers (by rw [hu]; exact h) ev
  exact ⟨hvmem.trans (hmem (by simp [hs])), hvm.trans hum⟩

/-- Settles O58: by the invariant the orchestrator is at rest, so of the four kinds of step none writes a buffer but through
the release rule, which needs M. -/
theorem afterResetNothingTouchesTheBuffers : Obligations.AfterResetNothingTouchesTheBuffers := by
  unfold Obligations.AfterResetNothingTouchesTheBuffers
  intro s h hm henc hdec
  have hcall : NoCallNext s.host := ⟨henc, hdec⟩
  have hs : s.orch.stage = .idle := by
    by_contra hrun
    exact absurd (h.orch.knows_m hrun) (by simp [hm])
  obtain ⟨t, e, _⟩ := everyStepKeepsTheInvariantAndNeverStops s h
  refine ⟨t, e, ?_⟩
  rcases step_cases s with ⟨_, q⟩ | ⟨_, _, q⟩ | ⟨_, _, _, q⟩ | ⟨_, _, _, q⟩ <;> rw [q] at e
  · exact drivePorts_keeps_buffers (s := resetStep s) hcall e
  · exact (drivePorts_keeps_buffers (s := initStep s) hcall e).imp_right fun hk => hk.trans hm
  · obtain ⟨w, ew⟩ := takeWord_answers s.cmd s
    have hf := takeWord_sameSurroundings ew
    rw [ew] at e
    have hw := afterCommand_keeps_buffers (by rw [hf.orch, hs]) (by rw [hf.orch, hm]) (by rw [hf.host]; exact hcall) e
    exact hw.imp_left fun hmem => hmem.trans hf.mem
  · exact (drivePorts_keeps_buffers (s := s.quiet) hcall e).imp_right fun hk => hk.trans hm

end Sys2Proof.Machine
end
